-- ==== Sys2Proof/Word.lean ====
section
/-! DEFINITION. The widths the block works on (R8): a byte on the channel or the request port, and the
16-bit response and result word. All datapath arithmetic is on these unsigned bit patterns (R10). -/

namespace Sys2Proof

/-- A byte: a host byte, a sub-command, a response byte, a count register (R8, R12). -/
abbrev Byte := BitVec 8

/-- A 16-bit word: `RAW` and `R_DATA` (R8). -/
abbrev Word := BitVec 16

end Sys2Proof
end

