-- ==== Sys2Proof/Config.lean ====
section
/-! DEFINITION. The implementation parameters of 00_scope.md R7. The ones R7 marks OPEN, and `EXT_RSP_BYTES`,
which a model may set (D9), are the fields of `Params`: every state carries a `Params`, no step writes it, so a
statement about every state is a statement about every choice of the parameters. `Params.nominal` is the choice
`State.reset` makes (assumption log entry 1). -/

namespace Sys2Proof

/-- `RES` (R7): the device resolution, given per request; `req_res12 = 1` means 12-bit (R40). -/
inductive Resolution where
  | res14
  | res12
  deriving DecidableEq, Repr

/-- `CTRL_STYLE` (R7, R24, D14): one combined control line, or separate driver and receiver enables. -/
inductive CtrlStyle where
  | singleLine
  | deRePair
  deriving DecidableEq, Repr

/-- `CTRL_POLARITY` (R7, R24): for each control line, the electrical level that asserts it. -/
structure CtrlPolarity where
  deActiveHigh : Bool
  reActiveHigh : Bool
  txenActiveHigh : Bool
  deriving DecidableEq, Repr

/-- The parameters of R7 that an implementation fixes. Times are in microseconds. `tDevLatency` and `baud` are
`none` where nothing gives a figure (D26). -/
structure Params where
  /-- `EXT_RSP_BYTES`: response bytes of an extended command (D9). -/
  extRspBytes : Nat
  /-- `TXQ_CAP`, at least 1: capacity of the UART transmit queue (R33, D13). -/
  txqCap : Nat
  /-- `RX_CAP`: capacity of the UART receive buffer (R34, D26). -/
  rxCap : Nat
  ctrlStyle : CtrlStyle
  ctrlPolarity : CtrlPolarity
  /-- `T_DRV_SETTLE`: least wait after `enterTransmit` (R252). -/
  tDrvSettle : Nat
  /-- `T_RSP_WAIT`: the fixed response wait (R171, R254). -/
  tRspWait : Nat
  /-- `T_QUIET`: least quiet interval (R256). -/
  tQuiet : Nat
  /-- `T_EXT_HOLDOFF`: least wait after an extended command (R177, R256). -/
  tExtHoldoff : Nat
  /-- `T_DEV_LATENCY`: the device's response start latency (R253). -/
  tDevLatency : Option Nat
  /-- `BAUD`: the bus bit rate. -/
  baud : Option Nat
  /-- `USABLE_ADDR` (R51, D22), by the slots of its base addresses, so that no other address can stand in it. -/
  usableSlots : List (BitVec 6)
  deriving DecidableEq, Repr

/-- `READ_RSP_BYTES` (R7): response bytes of Get position and Get turns. -/
def Config.readRspBytes : Nat := 2

/-- `MAX_ATTEMPTS` (R7): the source's retry ceiling; the host loop takes any `maxAttempts ≥ 1` (R222, D17). -/
def Config.maxAttempts : Nat := 3

/-- The 64 device slots, the values of field `A` (R81). -/
def Config.slots : List (BitVec 6) := (List.range 64).map (BitVec.ofNat 6)

/-- The base address of a slot, `4*k` (R51, R81). -/
def Config.baseOfSlot (slot : BitVec 6) : Byte := slot.setWidth 8 <<< 2

/-- The 64 base addresses (R51). -/
def Config.baseAddresses : List Byte := Config.slots.map Config.baseOfSlot

/-- `USABLE_ADDR`: the base addresses devices occupy, a subset of the 64 (R7). -/
def Params.usableAddr (p : Params) : List Byte := p.usableSlots.map Config.baseOfSlot

/-- The parameters `State.reset` carries: the source's figures for the waits (R257), `EXT_RSP_BYTES = 0` (D9),
`USABLE_ADDR` all 64 (R7), and, where R7 only says OPEN, a DESIGN CHOICE of the model (log entry 1, unsafe): capacities
that satisfy the lower bounds of every vector of 95_test_vectors.md, two control lines, each asserted by a high level. -/
def Params.nominal : Params where
  extRspBytes := 0
  txqCap := 2
  rxCap := 512
  ctrlStyle := .deRePair
  ctrlPolarity := ⟨true, true, true⟩
  tDrvSettle := 10
  tRspWait := 30
  tQuiet := 3
  tExtHoldoff := 250000
  tDevLatency := none
  baud := none
  usableSlots := Config.slots

end Sys2Proof
end

