-- ==== Sys2Proof/Syntax.lean ====
section
/-! DEFINITION. The commands of the block (R3): one constructor per row of the command map (R90). An operand `base`
is the 8-bit base address `req_addr`; its two low bits are zero in a well-formed command (R82). -/

namespace Sys2Proof

/-- A command, as presented on the request port. -/
inductive Instr where
  /-- `GETPOS base, res`: Get position (R180). -/
  | getpos (base : Byte) (res : Resolution)
  /-- `GETTURNS base`: Get turns (R181). -/
  | getturns (base : Byte)
  /-- `SETZERO base`: extended command 0x5E, set zero position (R182). -/
  | setzero (base : Byte)
  /-- `RESETDEV base`: extended command 0x75, reset (R183). -/
  | resetdev (base : Byte)
  /-- The reserved modifier 0b11 (R84, R184). -/
  | reservedModifier (base : Byte)
  /-- An extended command whose sub-command is neither 0x5E nor 0x75 (R85, R185). -/
  | undefinedSubCommand (base : Byte) (sub : Byte)
  deriving DecidableEq, Repr

/-- The base-address operand. -/
def Instr.base : Instr → Byte
  | .getpos base _ => base
  | .getturns base => base
  | .setzero base => base
  | .resetdev base => base
  | .reservedModifier base => base
  | .undefinedSubCommand base _ => base

end Sys2Proof
end

