-- ==== Sys2Proof/WellFormed.lean ====
section
/-! DEFINITION. Which terms of `Instr` the encodings can express: a base address has its two low bits zero (R82), and
the row of undefined sub-commands leaves out 0x5E and 0x75, which are rows of their own (R90). -/

namespace Sys2Proof

/-- The address invariant of R82: bits 1 to 0 are zero. -/
def alignedBase (base : Byte) : Bool := base.extractLsb' 0 2 == 0#2

/-- A well-formed command. -/
def Instr.wellFormed (i : Instr) : Bool :=
  alignedBase i.base &&
    match i with
    | .getpos _ _ => true
    | .getturns _ => true
    | .setzero _ => true
    | .resetdev _ => true
    | .reservedModifier _ => true
    | .undefinedSubCommand _ sub => sub != 0x5E#8 && sub != 0x75#8

end Sys2Proof
end

