-- ==== Sys2Proof/Decode.lean ====
section
/-! DEFINITION. From bits to commands and back. `decodeWire` reads the wire formats H and X (R81, R83); `decodeRequest`
reads a value of the request port (R40); `encode` and `encodeRequest` go the other way, from the same command map (R90). -/

namespace Sys2Proof

/-- The fields of the request port (R40), which are also the fields of the request latch `Q_ADDR`, `Q_CMD`, `Q_SUB`,
`Q_RES12` (R25). -/
structure Request where
  addr : Byte
  cmd : BitVec 2
  sub : Byte
  res12 : Bool
  deriving DecidableEq, Repr

/-- Why bytes or a request are no command of the map. -/
inductive DecodeError where
  /-- No byte at all. -/
  | noBytes
  /-- The modifier is 0b10 and no sub-command byte follows (R83). -/
  | missingSubCommand
  /-- `req_addr[1:0]` is not zero (R61, R186). -/
  | misalignedAddress
  deriving DecidableEq, Repr

/-- `req_res12`: 1 for a 12-bit device, 0 for a 14-bit one (R40). -/
def Resolution.ofBit (b : Bool) : Resolution := if b then .res12 else .res14

/-- The bit of `req_res12` for a resolution. -/
def Resolution.toBit : Resolution → Bool
  | .res14 => false
  | .res12 => true

/-- Field `M` of a host byte (R81). -/
def modifierOf (hostByte : Byte) : BitVec 2 := hostByte.extractLsb' 0 2

/-- The base address a host byte carries: field `A`, shifted left by 2 (R81). -/
def baseOf (hostByte : Byte) : Byte := (hostByte.extractLsb' 2 6).setWidth 8 <<< 2

/-- The extended command with a given sub-command (R85, R90). -/
def extendedCommand (base sub : Byte) : Instr :=
  if sub = 0x5E#8 then .setzero base
  else if sub = 0x75#8 then .resetdev base
  else .undefinedSubCommand base sub

/-- One command from the front of a list of wire bytes, with the bytes that follow it. The wire does not carry the
resolution, which the host passes with each request (R32): it is the argument `res`. -/
def decodeWire (res : Resolution) : List Byte → Except DecodeError (Instr × List Byte)
  | [] => .error .noBytes
  | hostByte :: rest =>
    if modifierOf hostByte = 0b00#2 then .ok (.getpos (baseOf hostByte) res, rest)
    else if modifierOf hostByte = 0b01#2 then .ok (.getturns (baseOf hostByte), rest)
    else if modifierOf hostByte = 0b10#2 then
      match rest with
      | [] => .error .missingSubCommand
      | sub :: rest => .ok (extendedCommand (baseOf hostByte) sub, rest)
    else .ok (.reservedModifier (baseOf hostByte), rest)

/-- The command a request-port value stands for (R90); a misaligned address stands for none (R61, R186). -/
def decodeRequest (r : Request) : Except DecodeError Instr :=
  if r.addr.extractLsb' 0 2 ≠ 0#2 then .error .misalignedAddress
  else if r.cmd = 0b00#2 then .ok (.getpos r.addr (.ofBit r.res12))
  else if r.cmd = 0b01#2 then .ok (.getturns r.addr)
  else if r.cmd = 0b10#2 then .ok (extendedCommand r.addr r.sub)
  else .ok (.reservedModifier r.addr)

/-- The modifier `M`, also `req_cmd`, of a command (R90). -/
def Instr.modifier : Instr → BitVec 2
  | .getpos _ _ => 0b00#2
  | .getturns _ => 0b01#2
  | .setzero _ => 0b10#2
  | .resetdev _ => 0b10#2
  | .reservedModifier _ => 0b11#2
  | .undefinedSubCommand _ _ => 0b10#2

/-- The sub-command byte of an extended command (R90). -/
def Instr.sub? : Instr → Option Byte
  | .getpos _ _ => none
  | .getturns _ => none
  | .setzero _ => some 0x5E#8
  | .resetdev _ => some 0x75#8
  | .reservedModifier _ => none
  | .undefinedSubCommand _ sub => some sub

/-- `hostbyte = base | M` (R81, C8). -/
def hostByteOf (base : Byte) (m : BitVec 2) : Byte := base ||| m.setWidth 8

/-- The wire bytes of a command, first byte first (R81, R83, R90). -/
def encode (i : Instr) : List Byte := hostByteOf i.base i.modifier :: i.sub?.toList

/-- The request-port value that presents a command (R90, R92). A field the command does not name (`req_sub` of a
command without sub-command, `req_res12` of any command but `GETPOS`) keeps what `lines` holds: the port drives every
field, and the latch takes every field (D29). -/
def encodeRequest (i : Instr) (lines : Request) : Request where
  addr := i.base
  cmd := i.modifier
  sub := i.sub?.getD lines.sub
  res12 := match i with
    | .getpos _ res => res.toBit
    | .getturns _ => lines.res12
    | .setzero _ => lines.res12
    | .resetdev _ => lines.res12
    | .reservedModifier _ => lines.res12
    | .undefinedSubCommand _ _ => lines.res12

/-- The two bytes of a table word. spec/opcode_table.json numbers a 2-byte pattern `byte0 * 256 + byte1`, first wire
byte in bits 15 to 8 (R83); a 1-byte pattern is the host byte alone, and the byte after it is taken as zero (log entry 2). -/
def tableBytes (nbits w : Nat) : Byte × Byte :=
  if nbits ≤ 8 then (BitVec.ofNat 8 w, 0#8) else (BitVec.ofNat 8 (w / 256), BitVec.ofNat 8 w)

/-- The command a table word stands for, with `req_res12 = 0`. -/
def decodeTableWord (nbits w : Nat) : Option Instr :=
  match decodeWire .res14 [(tableBytes nbits w).1, (tableBytes nbits w).2] with
  | .ok (i, _) => some i
  | .error _ => none

/-- The request-port value of a table word: the fields of its bytes, with `req_res12 = 0`. -/
def tableRequest (nbits w : Nat) : Request where
  addr := baseOf (tableBytes nbits w).1
  cmd := modifierOf (tableBytes nbits w).1
  sub := (tableBytes nbits w).2
  res12 := false

end Sys2Proof
end

