-- ==== Sys2Proof/Machine/State.lean ====
section
/-! DEFINITION. Everything the spec gives the machine, as plain data: the block's registers (10_state.md R22 to R27),
the environment state (R33, R34, R39), the request port the host drives (R40), the host agent's own variables
(60_exceptions.md R220 to R226), the parameters (R7) and the agenda, which says whose turn is next (R21). -/

namespace Sys2Proof.Machine

/-- `ST[3:0]`, the FSM state register (R22, D5). -/
inductive Fsm where
  | idle
  | preFlush
  | txEnable
  | txSettle
  | txByte0
  | txByte1
  | txDrain
  | rxEnable
  | rxWait
  | rxCheck
  | rxLo
  | rxHi
  | verify
  | postFlush
  | quiet
  deriving DecidableEq, Repr

/-- `DIR`, the BusDirection state (R23, R140). -/
inductive Dir where
  | transmit
  | receive
  deriving DecidableEq, Repr

/-- The status codes of `R_STATUS` (R210); `Status.code` in Flags.lean gives their numbers. -/
inductive Status where
  | ok
  | byteCountMismatch
  | checksumMismatch
  | illegalRequest
  deriving DecidableEq, Repr

/-- The kinds of `Wait` (R250). -/
inductive WaitKind where
  | drvSettle
  | rspWait
  | quiet
  | extHoldoff
  deriving DecidableEq, Repr

/-- The events of the history (R39), and `Reset`, which R240 records. -/
inductive Event where
  | accept (r : Request)
  | reject (r : Request)
  | setDir (d : Dir)
  | txWrite (b : Byte)
  | rxRead (b : Byte)
  | rxDrop (n : Nat)
  | wait (kind : WaitKind)
  | publish (status : Status) (data : Word) (count : Byte)
  | wire (b : Byte) (driven : Bool)
  | rxArrive (b : Byte)
  | rxOverrun (b : Byte)
  | reset
  deriving DecidableEq, Repr

/-- What a host read of the result port gives: `rsp_status`, `rsp_ok`, `rsp_data`, `rsp_count` (R41). -/
structure ResultView where
  status : Status
  ok : Bool
  data : Word
  count : Byte
  deriving DecidableEq, Repr

/-- The two host read loops: `readPosition(base, res, ·)` (R222) and `readTurns(base, ·)` (R223). -/
inductive ReadCall where
  | position (base : Byte) (res : Resolution)
  | turns (base : Byte)
  deriving DecidableEq, Repr

/-- Where a host loop stands inside `r <- transaction(…)` (R222). -/
inductive LoopPhase where
  /-- It is about to present its request. -/
  | request
  /-- It has presented its request and waits for that request's result. -/
  | await
  deriving DecidableEq, Repr

/-- The variables of a running host loop (R222): `attempts` is `k`. -/
structure HostLoop where
  call : ReadCall
  maxAttempts : Nat
  attempts : Nat
  phase : LoopPhase
  deriving DecidableEq, Repr

/-- What a host loop returns (R222, R223). -/
structure ReadOutcome where
  value : Word
  ok : Bool
  attempts : Nat
  deriving DecidableEq, Repr

/-- A turn of one of the four agents of R21, or of the reset input `rst` (R240). The inputs from outside, which the spec
leaves free (the line's byte, R37; what the host does, R38), are in the turn. -/
inductive Turn where
  /-- The block FSM takes its step. -/
  | block
  /-- The UART transmitter takes its step (R36). -/
  | uart
  /-- The bus line delivers `b` (R37). -/
  | line (b : Byte)
  /-- The host drives a request onto the request port, with `req_valid = 1` (R38, R40). -/
  | present (r : Request)
  /-- The host lowers `req_valid`. -/
  | withdraw
  /-- The host reads the result port (R41, R241). -/
  | readResult
  /-- The host starts `readPosition` or `readTurns` (R222, R223). -/
  | call (c : ReadCall) (maxAttempts : Nat)
  /-- The host takes one step of its running loop. -/
  | hostLoop
  /-- The reset input (R240). -/
  | rst
  deriving DecidableEq, Repr

/-- The machine. -/
structure State where
  /-- `ST` (R22). -/
  st : Fsm
  /-- `DIR` (R23). -/
  dir : Dir
  /-- The request latch `Q_ADDR`, `Q_CMD`, `Q_SUB`, `Q_RES12` (R25). -/
  latch : Request
  /-- `CNT` (R26). -/
  cnt : Byte
  /-- `RAW` (R26). -/
  raw : Word
  /-- `R_STATUS` (R27). -/
  rStatus : Status
  /-- `R_OK` (R27, R30). -/
  rOk : Bool
  /-- `R_DATA` (R27). -/
  rData : Word
  /-- `R_COUNT` (R27). -/
  rCount : Byte
  /-- `R_NEW`, the output `rsp_valid` (R27, R41). -/
  rNew : Bool
  /-- Whether `R_NEW` has ever been 1 (R27, R241): some `publish` happened. No reset takes that back (log entry 6). -/
  written : Bool
  /-- `TXQ`, head first (R33). -/
  txq : List Byte
  /-- `RXB`, oldest byte first (R34). -/
  rxb : List Byte
  /-- The event history, oldest first; no step reads it (R39). -/
  history : List Event
  /-- `req_valid` (R40). -/
  reqValid : Bool
  /-- `req_addr`, `req_cmd`, `req_sub`, `req_res12` (R40). -/
  req : Request
  /-- The host's running read loop, if one runs (R222, R223). -/
  hostLoop : Option HostLoop
  /-- The last values the host read from the result port. -/
  hostReading : Option ResultView
  /-- What the host's last finished loop returned. -/
  hostOutcome : Option ReadOutcome
  /-- The parameters (R7); no step writes them. -/
  params : Params
  /-- The turns still to come, next one first: the free interleaving of R21 as plain data (log entry 3). -/
  agenda : List Turn
  deriving DecidableEq, Repr

/-- Why the machine stops with a fault. -/
inductive Fault where
  /-- The host reads the result port while `R_NEW` has never been 1 (R27, R241: "a fault in the model, never a value").
  Raised by `readResult`. Safe: no value is given. -/
  | resultUnwritten
  /-- `RxRead` with `RXB` empty: its precondition is broken (R54). Raised by `rxRead`; no state of a run reaches it.
  Safe. -/
  | rxReadEmpty
  /-- `RX_CHECK` with `Q_CMD = 3`, for which R162 gives no expected count. Raised by `rxCheck`; no state of a run reaches
  it (R25). Safe. -/
  | noExpectedCount
  /-- A host loop called with `maxAttempts = 0`: the precondition of R222 is broken and no result is defined
  (95_test_vectors.md L2-RT-8). Raised by `startLoop`. Safe. -/
  | retryPrecondition
  deriving DecidableEq, Repr

/-- Why an instruction has no meaning. No arm of `exec` uses it: every command is modelled. -/
inductive Refusal where
  /-- Raised by an arm of `exec` for an instruction without a meaning yet. Safe. -/
  | notModelled (mnemonic : String)
  deriving DecidableEq, Repr

/-- What a step answers. -/
abbrev Result := Host.Outcome State Fault Refusal

/-- The machine right after reset (R42, R240), at the start of a run: the block's registers as R42 gives them, an empty
history, `TXQ` and `RXB` empty (log entry 4), no request presented and no host loop running (log entry 5). -/
def State.reset : State where
  st := .idle
  dir := .receive
  latch := ⟨0, 0, 0, false⟩
  cnt := 0
  raw := 0
  rStatus := .ok
  rOk := false
  rData := 0xFFFF
  rCount := 0
  rNew := false
  written := false
  txq := []
  rxb := []
  history := []
  reqValid := false
  req := ⟨0, 0, 0, false⟩
  hostLoop := none
  hostReading := none
  hostOutcome := none
  params := .nominal
  agenda := []

end Sys2Proof.Machine
end

