-- ==== Sys2Proof/Machine/Flags.lean ====
section
/-! DEFINITION. What decides the status of a transaction: the request check (R161), the checksum validator (40_checksum.md)
and the numbers of the status and state codes (R210, R22). -/

namespace Sys2Proof.Machine

/-- The request check `legal(req)` of R161. -/
def legal (r : Request) : Bool :=
  r.addr.extractLsb' 0 2 == 0b00#2
    && r.cmd != 0b11#2
    && (r.cmd != 0b10#2 || r.sub == 0x5E#8 || r.sub == 0x75#8)

/-- The bit-pair indices of R110. -/
def pairIndices : List Nat := [0, 2, 4, 6, 8, 10, 12]

/-- The accumulator of R110 after all seven pairs. -/
def checksumAcc (raw : Word) : BitVec 2 :=
  pairIndices.foldl (fun acc i => acc ^^^ ((raw >>> i) &&& 0b11#16).setWidth 2) 0b11#2

/-- The checksum validator `verify` (R110, R111). -/
def verify (raw : Word) : Bool := (checksumAcc raw).setWidth 16 == raw >>> 14

/-- `csum(m)`, the device-side check field of a payload (R113); not part of the block. -/
def csum (m : BitVec 14) : BitVec 2 :=
  0b11#2 ^^^ m.extractLsb' 0 2 ^^^ m.extractLsb' 2 2 ^^^ m.extractLsb' 4 2 ^^^ m.extractLsb' 6 2
    ^^^ m.extractLsb' 8 2 ^^^ m.extractLsb' 10 2 ^^^ m.extractLsb' 12 2

/-- `enc(m)`, the word a device sends for a payload (R113); not part of the block. -/
def enc (m : BitVec 14) : Word := ((csum m).setWidth 16 <<< 14) ||| m.setWidth 16

/-- The number of a status code (R210). -/
def Status.code : Status → BitVec 2
  | .ok => 0b00#2
  | .byteCountMismatch => 0b01#2
  | .checksumMismatch => 0b10#2
  | .illegalRequest => 0b11#2

/-- The number of an FSM state (R22); 0xF is the number of none. -/
def Fsm.code : Fsm → BitVec 4
  | .idle => 0x0#4
  | .preFlush => 0x1#4
  | .txEnable => 0x2#4
  | .txSettle => 0x3#4
  | .txByte0 => 0x4#4
  | .txByte1 => 0x5#4
  | .txDrain => 0x6#4
  | .rxEnable => 0x7#4
  | .rxWait => 0x8#4
  | .rxCheck => 0x9#4
  | .rxLo => 0xA#4
  | .rxHi => 0xB#4
  | .verify => 0xC#4
  | .postFlush => 0xD#4
  | .quiet => 0xE#4

/-- `R_DATA` on any failure (R215, D11). -/
def failureData : Word := 0xFFFF#16

/-- `R_DATA` of a completed extended command (R172, R215). -/
def extendedData : Word := 0x0000#16

/-- `sat8(n) = min(n, 255)` (R55). -/
def sat8 (n : Nat) : Byte := BitVec.ofNat 8 (min n 255)

end Sys2Proof.Machine
end

