-- ==== Sys2Proof/Machine/Operands.lean ====
section
/-! DEFINITION. The operands of the block's operations: the request bytes and the expected count of a latched request
(R162), the response word (R58) and the readings decoded from it (41_decode.md). -/

namespace Sys2Proof.Machine

/-- `hostbyte` of a latched request (R162): `Q_ADDR | zext_8(Q_CMD)`. -/
def hostByte (latch : Request) : Byte := latch.addr ||| latch.cmd.setWidth 8

/-- `subbyte` of a latched request (R162). -/
def subByte (latch : Request) : Byte := latch.sub

/-- `expected` of a latched request (R162). R162 gives no count for `Q_CMD = 3`, which is never latched (R25). -/
def expectedCount (p : Params) (latch : Request) : Option Nat :=
  if latch.cmd = 0b00#2 ∨ latch.cmd = 0b01#2 then some Config.readRspBytes
  else if latch.cmd = 0b10#2 then some p.extRspBytes
  else none

/-- `{hi, lo}` (R9, R58). -/
def wordOf (hi lo : Byte) : Word := hi ++ lo

/-- `RAW` with its low byte replaced (R173). -/
def withLowByte (raw : Word) (lo : Byte) : Word := wordOf (raw.extractLsb' 8 8) lo

/-- `RAW` with its high byte replaced (R174). -/
def withHighByte (raw : Word) (hi : Byte) : Word := wordOf hi (raw.extractLsb' 0 8)

/-- `decodePosition(raw, RES14)` (R125) and `decodePosition(raw, RES12)` (R126). -/
def decodePosition (raw : Word) : Resolution → Word
  | .res14 => raw &&& 0x3FFF#16
  | .res12 => (raw &&& 0x3FFF#16) >>> 2

/-- `decodeTurns(raw)` (R127). -/
def decodeTurns (raw : Word) : Word := (raw <<< 2).sshiftRight 2

end Sys2Proof.Machine
end

