-- ==== Sys2Proof/Machine/Ops.lean ====
section
/-! DEFINITION. The named operations every step is made of: the history (R39), the byte-channel primitives
(20_memory.md R52 to R57), `Wait` (R250), `publish` (R214), which is the block's one report of an outcome or an error, and
reset (R240). -/

namespace Sys2Proof.Machine

/-- `record e`: appends to the history (R39). -/
def State.record (e : Event) (s : State) : State := { s with history := s.history ++ [e] }

/-- `ST <- S` (R9). -/
def State.goTo (next : Fsm) (s : State) : State := { s with st := next }

/-- `SetDir(d)` (R52). -/
def State.setDir (d : Dir) (s : State) : State := { s with dir := d }.record (.setDir d)

/-- `TXC`, which is `TxComplete()` (R33, R57). -/
def State.txc (s : State) : Bool := s.txq.isEmpty

/-- `TXBE` (R33). -/
def State.txbe (s : State) : Bool := decide (s.txq.length < s.params.txqCap)

/-- The effect of an enabled `TxWrite(b)` (R53). -/
def State.txWrite (b : Byte) (s : State) : State := { s with txq := s.txq ++ [b] }.record (.txWrite b)

/-- `RxCount()` (R55). -/
def State.rxCount (s : State) : Nat := s.rxb.length

/-- `RxRead()` (R54): the byte read and the state after, or nothing where `RXB` is empty and its precondition fails. -/
def State.rxRead (s : State) : Option (Byte × State) :=
  match s.rxb with
  | [] => none
  | b :: rest => some (b, { s with rxb := rest }.record (.rxRead b))

/-- `RxDrop(n)` (R56). -/
def State.rxDrop (n : Nat) (s : State) : State := { s with rxb := s.rxb.drop n }.record (.rxDrop n)

/-- `Wait(kind)` (R250): one step, always enabled, with no effect but its event. -/
def State.wait (kind : WaitKind) (s : State) : State := s.record (.wait kind)

/-- `publish(status, data, count)` (R214). -/
def State.publish (status : Status) (data : Word) (count : Byte) (s : State) : State :=
  { s with
    rStatus := status
    rOk := decide (status = Status.ok)
    rData := data
    rCount := count
    rNew := true
    written := true }.record (.publish status data count)

/-- The reset input `rst` (R240): the block's registers at the values of R42. `TXQ` and `RXB` belong to the UART and stay,
and so does all that belongs to the host. That `R_NEW` has been 1 before stays true (R241, log entry 6). -/
def State.resetBlock (s : State) : State :=
  { s with
    st := .idle
    dir := .receive
    latch := ⟨0, 0, 0, false⟩
    cnt := 0
    raw := 0
    rStatus := .ok
    rOk := false
    rData := 0xFFFF
    rCount := 0
    rNew := false }.record .reset

/-- `req_ready` (R28). -/
def State.reqReady (s : State) : Bool := decide (s.st = .idle)

/-- `busy` (R28). -/
def State.busy (s : State) : Bool := decide (s.st ≠ .idle)

/-- The result port's data outputs (R41). -/
def State.resultView (s : State) : ResultView := ⟨s.rStatus, s.rOk, s.rData, s.rCount⟩

end Sys2Proof.Machine
end

