-- ==== Sys2Proof/Machine/Turnaround.lean ====
section
/-! DEFINITION. The bus turnaround machine (42_turnaround.md): its two operations, the wait for transmission complete
and the transceiver control outputs (R24). -/

namespace Sys2Proof.Machine

/-- `enterTransmit()`, the step of TX_ENABLE (R141, R165). -/
def enterTransmit (s : State) : State := (s.setDir .transmit).goTo .txSettle

/-- `enterReceive()`, the step of RX_ENABLE (R142, R170). -/
def enterReceive (s : State) : State := (s.setDir .receive).goTo .rxWait

/-- The step of TX_DRAIN (R143, R169): it waits for `TxComplete()`; while that is false the block holds. -/
def drain (s : State) : State := if s.txc then s.goTo .rxEnable else s

/-- The transceiver control outputs (R24): which lines are asserted. -/
inductive ControlOutputs where
  | pair (de re : Bool)
  | single (txen : Bool)
  deriving DecidableEq, Repr

/-- The asserted lines as a function of `CTRL_STYLE` and `DIR` (R24). -/
def controlOutputs (style : CtrlStyle) (d : Dir) : ControlOutputs :=
  match style with
  | .deRePair => .pair (decide (d = Dir.transmit)) (decide (d = Dir.receive))
  | .singleLine => .single (decide (d = Dir.transmit))

/-- The electrical level of a line, from whether it is asserted and which level asserts it (R24, `CTRL_POLARITY`). -/
def lineLevel (activeHigh asserted : Bool) : Bool := asserted == activeHigh

/-- The electrical levels of the control outputs (R24). -/
def controlLevels (pol : CtrlPolarity) : ControlOutputs → ControlOutputs
  | .pair de re => .pair (lineLevel pol.deActiveHigh de) (lineLevel pol.reActiveHigh re)
  | .single txen => .single (lineLevel pol.txenActiveHigh txen)

/-- The control lines a state asserts. -/
def State.controls (s : State) : ControlOutputs := controlOutputs s.params.ctrlStyle s.dir

end Sys2Proof.Machine
end

