-- ==== Sys2Proof/Machine/Framer.lean ====
section
/-! DEFINITION. The protocol framer (43_transaction.md): the step of each FSM state (R163 to R177), and the framer as the
spec states it over the request latch (`framerStep`). The commands are put together from the same steps in Commands.lean. -/

namespace Sys2Proof.Machine

/-- IDLE with a request presented (R163): a legal request is latched and a transaction starts; any other is rejected with
ILLEGAL_REQUEST and no bus activity. Taking a request ends its presentation: `req_valid` falls (log entry 7). -/
def takeRequest (r : Request) (s : State) : State :=
  if legal r then
    ({ s with latch := r, rNew := false, reqValid := false }.record (.accept r)).goTo .preFlush
  else
    (({ s with reqValid := false }.record (.reject r)).publish .illegalRequest failureData 0).goTo .idle

/-- PRE_FLUSH (R164) and POST_FLUSH (R176): discard the bytes present when the count is sampled. -/
def flush (next : Fsm) (s : State) : State := (s.rxDrop s.rxCount).goTo next

/-- TX_SETTLE (R166), RX_WAIT (R171) and QUIET (R177): a wait of one step. -/
def waitThen (kind : WaitKind) (next : Fsm) (s : State) : State := (s.wait kind).goTo next

/-- TX_BYTE0 (R167) and TX_BYTE1 (R168): write a byte, or hold while the transmit queue is full (R53). -/
def sendByte (b : Byte) (next : Fsm) (s : State) : State := if s.txbe then (s.txWrite b).goTo next else s

/-- `CNT <- sat8(c)` (R172). -/
def State.sampleCount (s : State) : State := { s with cnt := sat8 s.rxCount }

/-- RX_CHECK where the count is not the expected one (R172). -/
def countFailed (s : State) : State :=
  (s.sampleCount.publish .byteCountMismatch failureData (sat8 s.rxCount)).goTo .postFlush

/-- RX_CHECK of a read command (R172): on the expected count it goes on to read the bytes. The full count is compared,
not the saturated one (D32). -/
def checkRead (expected : Nat) (s : State) : State :=
  if s.rxCount ≠ expected then countFailed s else s.sampleCount.goTo .rxLo

/-- RX_CHECK of an extended command (R172): on the expected count the command is done. -/
def checkExtended (expected : Nat) (s : State) : State :=
  if s.rxCount ≠ expected then countFailed s
  else (s.sampleCount.publish .ok extendedData (sat8 s.rxCount)).goTo .postFlush

/-- RX_LO (R173): `RAW[7:0] <- RxRead()`. -/
def readLow (s : State) : Result :=
  match s.rxRead with
  | some (b, t) => .next ({ t with raw := withLowByte s.raw b }.goTo .rxHi)
  | none => .fault .rxReadEmpty

/-- RX_HI (R174): `RAW[15:8] <- RxRead()`. -/
def readHigh (s : State) : Result :=
  match s.rxRead with
  | some (b, t) => .next ({ t with raw := withHighByte s.raw b }.goTo .verify)
  | none => .fault .rxReadEmpty

/-- VERIFY (R175): the checksum, and the reading `decode RAW` where it passes. -/
def verifyWith (decode : Word → Word) (s : State) : State :=
  (if verify s.raw then s.publish .ok (decode s.raw) s.cnt
   else s.publish .checksumMismatch failureData s.cnt).goTo .postFlush

/-- RX_CHECK as R172 states it over the latch. -/
def rxCheck (s : State) : Result :=
  match expectedCount s.params s.latch with
  | none => .fault .noExpectedCount
  | some n => .next (if s.latch.cmd = 0b10#2 then checkExtended n s else checkRead n s)

/-- The decoder VERIFY selects from the latch (R175). -/
def latchedDecode (latch : Request) (raw : Word) : Word :=
  if latch.cmd = 0b00#2 then decodePosition raw (.ofBit latch.res12) else decodeTurns raw

/-- The framer's step in a state other than IDLE, as R164 to R177 state it over the latch. -/
def framerStep (s : State) : Result :=
  match s.st with
  | .idle => .next s
  | .preFlush => .next (flush .txEnable s)
  | .txEnable => .next (enterTransmit s)
  | .txSettle => .next (waitThen .drvSettle .txByte0 s)
  | .txByte0 => .next (sendByte (hostByte s.latch) (if s.latch.cmd = 0b10#2 then .txByte1 else .txDrain) s)
  | .txByte1 => .next (sendByte (subByte s.latch) .txDrain s)
  | .txDrain => .next (drain s)
  | .rxEnable => .next (enterReceive s)
  | .rxWait => .next (waitThen .rspWait .rxCheck s)
  | .rxCheck => rxCheck s
  | .rxLo => readLow s
  | .rxHi => readHigh s
  | .verify => .next (verifyWith (latchedDecode s.latch) s)
  | .postFlush => .next (flush .quiet s)
  | .quiet => .next (waitThen (if s.latch.cmd = 0b10#2 then .extHoldoff else .quiet) .idle s)

end Sys2Proof.Machine
end

