-- ==== Sys2Proof/Machine/Commands.lean ====
section
/-! DEFINITION. What the commands share: when a command is in flight, and the sequences of a read command (R180) and of an
extended command (R182), one step at a time. -/

namespace Sys2Proof.Machine

/-- The command whose transaction runs: the one the latch holds, outside IDLE (R25, R163). Only a legal request is ever
latched. -/
def State.inFlight (s : State) : Option Instr :=
  if s.st = .idle ∨ legal s.latch = false then none
  else match decodeRequest s.latch with
    | .ok i => some i
    | .error _ => none

/-- One step of the block on a command. In IDLE the command's request is taken (R163). While the command's own transaction
runs, the step is `body`. While another transaction runs, a request waits for IDLE and nothing changes (R189). -/
def runCommand (i : Instr) (body : State → Result) (s : State) : Result :=
  if s.st = .idle then .next (takeRequest (encodeRequest i s.req) s)
  else if s.inFlight = some i then body s
  else .next s

/-- The steps of a read command (R180, R181), with its host byte and its decoder. A read never enters TX_BYTE1. -/
def readBody (host : Byte) (decode : Word → Word) (s : State) : Result :=
  match s.st with
  | .preFlush => .next (flush .txEnable s)
  | .txEnable => .next (enterTransmit s)
  | .txSettle => .next (waitThen .drvSettle .txByte0 s)
  | .txByte0 => .next (sendByte host .txDrain s)
  | .txDrain => .next (drain s)
  | .rxEnable => .next (enterReceive s)
  | .rxWait => .next (waitThen .rspWait .rxCheck s)
  | .rxCheck => .next (checkRead Config.readRspBytes s)
  | .rxLo => readLow s
  | .rxHi => readHigh s
  | .verify => .next (verifyWith decode s)
  | .postFlush => .next (flush .quiet s)
  | .quiet => .next (waitThen .quiet .idle s)
  | .idle => framerStep s
  | .txByte1 => framerStep s

/-- The steps of an extended command (R182, R183), with its two wire bytes. It reads no response byte and never enters
RX_LO, RX_HI or VERIFY. -/
def extendedBody (host sub : Byte) (s : State) : Result :=
  match s.st with
  | .preFlush => .next (flush .txEnable s)
  | .txEnable => .next (enterTransmit s)
  | .txSettle => .next (waitThen .drvSettle .txByte0 s)
  | .txByte0 => .next (sendByte host .txByte1 s)
  | .txByte1 => .next (sendByte sub .txDrain s)
  | .txDrain => .next (drain s)
  | .rxEnable => .next (enterReceive s)
  | .rxWait => .next (waitThen .rspWait .rxCheck s)
  | .rxCheck => .next (checkExtended s.params.extRspBytes s)
  | .postFlush => .next (flush .quiet s)
  | .quiet => .next (waitThen .extHoldoff .idle s)
  | .idle => framerStep s
  | .rxLo => framerStep s
  | .rxHi => framerStep s
  | .verify => framerStep s

/-- The steps of a request that is never accepted (R184, R185): none. It is answered in IDLE, in one step. -/
def neverInFlight (s : State) : Result := .next s

end Sys2Proof.Machine
end

