-- ==== Sys2Proof/Machine/Extended.lean ====
section
/-! DEFINITION. The extended commands. What the device does on receiving one is outside the block (R6, R221). -/

namespace Sys2Proof.Machine

/-- `SETZERO base` (R182): wire bytes `base | 0b10`, 0x5E. -/
def execSetzero (base : Byte) (s : State) : Result :=
  runCommand (.setzero base) (extendedBody (base ||| 0x02#8) 0x5E#8) s

/-- `RESETDEV base` (R183): wire bytes `base | 0b10`, 0x75. -/
def execResetdev (base : Byte) (s : State) : Result :=
  runCommand (.resetdev base) (extendedBody (base ||| 0x02#8) 0x75#8) s

end Sys2Proof.Machine
end

