-- ==== Sys2Proof/Machine/Reads.lean ====
section
/-! DEFINITION. The read commands. -/

namespace Sys2Proof.Machine

/-- `GETPOS base, res` (R180): host byte `base | 0b00`, a position decoded at the request's resolution. -/
def execGetpos (base : Byte) (res : Resolution) (s : State) : Result :=
  runCommand (.getpos base res) (readBody (base ||| 0x00#8) (fun raw => decodePosition raw res)) s

/-- `GETTURNS base` (R181): host byte `base | 0b01`, a turn count. -/
def execGetturns (base : Byte) (s : State) : Result :=
  runCommand (.getturns base) (readBody (base ||| 0x01#8) decodeTurns) s

end Sys2Proof.Machine
end

