-- ==== Sys2Proof/Machine/Reserved.lean ====
section
/-! DEFINITION. The reserved encodings: their requests are rejected with ILLEGAL_REQUEST, and nothing is sent (R91). -/

namespace Sys2Proof.Machine

/-- The reserved modifier (R84, R184). -/
def execReservedModifier (base : Byte) (s : State) : Result :=
  runCommand (.reservedModifier base) neverInFlight s

/-- An undefined sub-command (R85, R185). -/
def execUndefinedSubCommand (base sub : Byte) (s : State) : Result :=
  runCommand (.undefinedSubCommand base sub) neverInFlight s

end Sys2Proof.Machine
end

