-- ==== Sys2Proof/Machine/Dispatch.lean ====
section
/-! DEFINITION. One step of the block on a command, by constructor. -/

namespace Sys2Proof.Machine

/-- One step of the block FSM on the command `i`: the accept or reject step in IDLE, the next step of its transaction while
it is in flight (R12, R163 to R177). -/
def exec (i : Instr) (s : State) : Host.Outcome State Fault Refusal :=
  match i with
  | .getpos base res => Sys2Proof.Machine.execGetpos base res s
  | .getturns base => Sys2Proof.Machine.execGetturns base s
  | .setzero base => Sys2Proof.Machine.execSetzero base s
  | .resetdev base => Sys2Proof.Machine.execResetdev base s
  | .reservedModifier base => Sys2Proof.Machine.execReservedModifier base s
  | .undefinedSubCommand base sub => Sys2Proof.Machine.execUndefinedSubCommand base sub s

end Sys2Proof.Machine
end

