-- ==== Sys2Proof/Machine/Environment.lean ====
section
/-! DEFINITION. The agents around the block: the UART transmitter (R36), the bus line (R37) and the host (R38, 60_exceptions.md
section 4). -/

namespace Sys2Proof.Machine

/-- The UART transmitter's step (R36): the head of `TXQ` is clocked out, driven if `DIR` is Transmit. With `TXQ` empty it has
no step. -/
def uartStep (s : State) : State :=
  match s.txq with
  | [] => s
  | b :: rest => { s with txq := rest }.record (.wire b (decide (s.dir = Dir.transmit)))

/-- The bus line's step (R37): the byte `b` arrives, or is lost where the receive buffer is full. -/
def lineStep (b : Byte) (s : State) : State :=
  if s.rxb.length < s.params.rxCap then { s with rxb := s.rxb ++ [b] }.record (.rxArrive b)
  else s.record (.rxOverrun b)

/-- The host drives a request onto the port (R38, R40). The block does not check the host's duties (R220). -/
def presentRequest (r : Request) (s : State) : State := { s with reqValid := true, req := r }

/-- The host lowers `req_valid`. -/
def withdrawRequest (s : State) : State := { s with reqValid := false }

/-- The host reads the result port (R41): a fault while `R_NEW` has never been 1 (R27, R241). From then on the read gives
what the registers hold, stale values or those of a later reset included (R220). -/
def readResult (s : State) : Result :=
  if s.written then .next { s with hostReading := some s.resultView } else .fault .resultUnwritten

/-- The command of a host loop (R222, R223). -/
def ReadCall.command : ReadCall → Instr
  | .position base res => .getpos base res
  | .turns base => .getturns base

/-- A call of `readPosition` or `readTurns`; `maxAttempts ≥ 1` is required (R222, D17). -/
def startLoop (c : ReadCall) (maxAttempts : Nat) (s : State) : Result :=
  if maxAttempts = 0 then .fault .retryPrecondition
  else .next { s with
    hostLoop := some { call := c, maxAttempts := maxAttempts, attempts := 1, phase := .request }
    hostOutcome := none }

/-- What a loop does with the result of its attempt number `k` (R222 to R225): nothing if it makes another attempt. -/
def retryDecision (r : ResultView) (k maxAttempts : Nat) : Option ReadOutcome :=
  match r.status with
  | .ok => some ⟨r.data, true, k⟩
  | .illegalRequest => some ⟨failureData, false, k⟩
  | .byteCountMismatch => if k = maxAttempts then some ⟨failureData, false, k⟩ else none
  | .checksumMismatch => if k = maxAttempts then some ⟨failureData, false, k⟩ else none

/-- A loop about to present its request: it does so while `req_ready` (R220, R222). -/
def loopPresent (l : HostLoop) (s : State) : State :=
  if s.reqReady then
    { presentRequest (encodeRequest l.call.command s.req) s with hostLoop := some { l with phase := .await } }
  else s

/-- A loop that waits for its result: once its request has been taken and `rsp_valid` is up, it reads the result and
returns or starts the next attempt (R222). -/
def loopAwait (l : HostLoop) (s : State) : State :=
  if s.reqValid = false ∧ s.rNew = true then
    match retryDecision s.resultView l.attempts l.maxAttempts with
    | some out => { s with hostReading := some s.resultView, hostLoop := none, hostOutcome := some out }
    | none => { s with
        hostReading := some s.resultView
        hostLoop := some { l with attempts := l.attempts + 1, phase := .request } }
  else s

/-- One step of the host's running loop. -/
def hostLoopStep (s : State) : State :=
  match s.hostLoop with
  | none => s
  | some l =>
    match l.phase with
    | .request => loopPresent l s
    | .await => loopAwait l s

/-- An action of the host outside a loop. The host is single-threaded (R21): while a loop runs it does nothing else. -/
def hostAction (act : State → Result) (s : State) : Result :=
  if s.hostLoop.isSome then .next s else act s

end Sys2Proof.Machine
end

