-- ==== Sys2Proof/Machine/Turns.lean ====
section
/-! DEFINITION. The turns of R21: who moves next, and what each agent's turn does. -/

namespace Sys2Proof.Machine

/-- Whether the block FSM has a step: in IDLE a request must be presented (R163), TX_BYTE0 and TX_BYTE1 hold while the
transmit queue is full (R53), TX_DRAIN holds while it is not empty (R143). -/
def State.blockEnabled (s : State) : Bool :=
  match s.st with
  | .idle => s.reqValid
  | .preFlush => true
  | .txEnable => true
  | .txSettle => true
  | .txByte0 => s.txbe
  | .txByte1 => s.txbe
  | .txDrain => s.txc
  | .rxEnable => true
  | .rxWait => true
  | .rxCheck => true
  | .rxLo => true
  | .rxHi => true
  | .verify => true
  | .postFlush => true
  | .quiet => true

/-- Whether the host's running loop has a step: it presents while `req_ready`, and goes on once its request has been taken
and `rsp_valid` is up (R220, R222). -/
def State.loopEnabled (s : State) : Bool :=
  match s.hostLoop with
  | none => false
  | some l =>
    match l.phase with
    | .request => s.reqReady
    | .await => !s.reqValid && s.rNew

/-- The four agents of R21. -/
inductive Agent where
  | block
  | host
  | uart
  | line
  deriving DecidableEq, Repr

/-- Whether an agent has an enabled step (R21). The line has one in every state (R37). Outside a loop the host acts when it
likes (R38), so there it counts as having none. -/
def Agent.enabled (a : Agent) (s : State) : Bool :=
  match a with
  | .block => s.blockEnabled
  | .host => s.loopEnabled
  | .uart => !s.txc
  | .line => true

/-- The agent whose enabled step a turn takes: none for what the host does outside a loop and for the reset input. -/
def Turn.serves : Turn → Option Agent
  | .block => some .block
  | .uart => some .uart
  | .line _ => some .line
  | .present _ => none
  | .withdraw => none
  | .readResult => none
  | .call _ _ => none
  | .hostLoop => some .host
  | .rst => none

/-- The turn taken when the agenda is used up: the block if it has a step, else the UART if it has one, else the host's
loop if one runs, else none that changes anything (log entry 3). What the line then delivers is for an agenda to say;
unending schedules are in Safety.lean. -/
def State.defaultTurn (s : State) : Turn :=
  if s.blockEnabled then .block
  else if s.txq ≠ [] then .uart
  else if s.hostLoop.isSome then .hostLoop
  else .block

/-- Whose turn it is. -/
def State.nextTurn (s : State) : Turn :=
  match s.agenda with
  | [] => s.defaultTurn
  | t :: _ => t

/-- The state with the turn taken off the agenda. -/
def State.popTurn (s : State) : State := { s with agenda := s.agenda.tail }

/-- A request that stands for no command, because its address is misaligned: rejected like every illegal one (R186). -/
def rejectUndecoded (s : State) : Result := .next (takeRequest s.req s)

/-- The block's turn. In IDLE it takes a presented request and has no step without one (R163). In any other state it takes
the next step of the command in flight. Where the latch holds no legal command, which no run reaches (R25), the framer's rules
still say what the step does. -/
def blockTurn (s : State) : Result :=
  if s.st = .idle then
    if s.reqValid then
      match decodeRequest s.req with
      | .ok i => exec i s
      | .error _ => rejectUndecoded s
    else .next s
  else
    match s.inFlight with
    | some i => exec i s
    | none => framerStep s

/-- What a turn does. -/
def takeTurn (t : Turn) (s : State) : Result :=
  match t with
  | .block => blockTurn s
  | .uart => .next (uartStep s)
  | .line b => .next (lineStep b s)
  | .present r => hostAction (fun s => .next (presentRequest r s)) s
  | .withdraw => hostAction (fun s => .next (withdrawRequest s)) s
  | .readResult => hostAction readResult s
  | .call c n => hostAction (startLoop c n) s
  | .hostLoop => .next (hostLoopStep s)
  | .rst => .next s.resetBlock

/-- A state in which a request is presented and the block is the next to move: the program of this machine is the sequence
of requests, which comes from outside (R3, log entry 8). -/
def placeRequest (r : Request) (s : State) : State :=
  { s with
    st := .idle
    dir := if s.st = .idle then s.dir else .receive
    reqValid := true
    req := r
    agenda := if s.agenda = [] then [] else .block :: s.agenda }

end Sys2Proof.Machine
end

