-- ==== Sys2Proof/Machine/Step.lean ====
section
/-! DEFINITION. One step of the machine: one turn of one agent (R12, R21). -/

namespace Sys2Proof.Machine

/-- One step: the next turn of the agenda, or the default turn once the agenda is used up. -/
def step (s : State) : Host.Outcome State Fault Refusal := takeTurn s.nextTurn s.popTurn

/-- `s` with the command of a table word presented and the block's turn next (log entries 2 and 8). -/
def State.withFetchWord (s : State) (nbits w : Nat) : State := placeRequest (tableRequest nbits w) s

end Sys2Proof.Machine
end

