-- ==== Sys2Proof/Machine/Notation.lean ====
section
/-! DEFINITION. The notation of request programs (R92, R93, D23): what the host and the line do for one statement. No step
reads it. -/

namespace Sys2Proof.Machine

/-- A statement of a request program. -/
inductive RequestStatement where
  /-- `GETPOS`, `GETTURNS`, `SETZERO`, `RESETDEV`: the request of a command. -/
  | command (i : Instr)
  /-- `RAWREQ addr, cmd, sub`: any request-port value, legal or not. The statement names no `req_res12` (log entry 20). -/
  | rawReq (addr : Byte) (cmd : BitVec 2) (sub : Byte)
  /-- `.line [b0, b1, …]`: bytes the line delivers during the response wait. -/
  | line (bytes : List Byte)
  /-- `READPOS base, res`: the host loop over `GETPOS` (R93). -/
  | readPos (base : Byte) (res : Resolution)
  /-- `READTURNS base`: the host loop over `GETTURNS` (R93). -/
  | readTurns (base : Byte)
  deriving DecidableEq, Repr

/-- The host's and the line's turns of a statement; `lines` is what the request port holds before it. DESIGN CHOICE (log
entry 20): `RAWREQ` leaves `req_res12` as the port holds it, where R92 is silent, and the schedule sets these turns among
the block's. -/
def RequestStatement.turns (lines : Request) : RequestStatement → List Turn
  | .command i => [.present (encodeRequest i lines)]
  | .rawReq addr cmd sub => [.present { lines with addr := addr, cmd := cmd, sub := sub }]
  | .line bytes => bytes.map .line
  | .readPos base res => [.call (.position base res) Config.maxAttempts]
  | .readTurns base => [.call (.turns base) Config.maxAttempts]

end Sys2Proof.Machine
end

