-- ==== Sys2Proof/Safety.lean ====
section
/-! DEFINITION. What a safe run is: the invariants of the machine, unending runs and their weak fairness (R21), the readings
of the event history that claims about the wire need (R39), and the timing obligations of 70_reset_and_hazards.md, which no step reads (R250). -/

namespace Sys2Proof.Machine

/-- The states in which BusDirection is Transmit (R22, R145). -/
def Fsm.transmitting : Fsm → Bool
  | .txSettle => true
  | .txByte0 => true
  | .txByte1 => true
  | .txDrain => true
  | .rxEnable => true
  | .idle => false
  | .preFlush => false
  | .txEnable => false
  | .rxWait => false
  | .rxCheck => false
  | .rxLo => false
  | .rxHi => false
  | .verify => false
  | .postFlush => false
  | .quiet => false

/-- The states between the accept step and the publication of the transaction's result (R27, R213). -/
def Fsm.resultPending : Fsm → Bool
  | .preFlush => true
  | .txEnable => true
  | .txSettle => true
  | .txByte0 => true
  | .txByte1 => true
  | .txDrain => true
  | .rxEnable => true
  | .rxWait => true
  | .rxCheck => true
  | .rxLo => true
  | .rxHi => true
  | .verify => true
  | .idle => false
  | .postFlush => false
  | .quiet => false

/-- The direction invariant (R145). -/
abbrev DirectionInv (s : State) : Prop := s.dir = .transmit ↔ s.st.transmitting = true

/-- The latch holds a legal request (R25): at reset its fields are zero, which is one. -/
abbrev LatchInv (s : State) : Prop := legal s.latch = true

/-- What the count check has established in the states after it (R26, R54), and which commands reach which states. -/
abbrev SequenceInv (s : State) : Prop :=
  (s.st = .txByte1 → s.latch.cmd = 0b10#2) ∧
  (s.st = .rxLo → s.latch.cmd ≠ 0b10#2 ∧ s.cnt = 2#8 ∧ 2 ≤ s.rxb.length) ∧
  (s.st = .rxHi → s.latch.cmd ≠ 0b10#2 ∧ s.cnt = 2#8 ∧ 1 ≤ s.rxb.length) ∧
  (s.st = .verify → s.latch.cmd ≠ 0b10#2 ∧ s.cnt = 2#8)

/-- The capacities hold, and `TXQ_CAP` is at least 1 (R33, R34). -/
abbrev CapacityInv (s : State) : Prop :=
  1 ≤ s.params.txqCap ∧ s.txq.length ≤ s.params.txqCap ∧ s.rxb.length ≤ s.params.rxCap

/-- The result registers hold their reset values, which are not a result (R27, R42). -/
abbrev State.ResultAtReset (s : State) : Prop :=
  s.rStatus = .ok ∧ s.rOk = false ∧ s.rData = 0xFFFF#16 ∧ s.rCount = 0#8 ∧ s.rNew = false

/-- The result registers hold their reset values, and do so before the first publication, or a publication's, whose `R_OK`
agrees with `R_STATUS`. `R_NEW` is down while a result is pending and up between its publication and IDLE (R27). -/
abbrev ResultInv (s : State) : Prop :=
  (s.ResultAtReset ∨ s.rOk = decide (s.rStatus = Status.ok)) ∧
  (s.written = false → s.ResultAtReset) ∧
  (s.rNew = true → s.written = true) ∧
  (s.st.resultPending = true → s.rNew = false) ∧
  (s.st = .postFlush ∨ s.st = .quiet → s.rNew = true)

/-- The invariant of the machine. -/
structure Inv (s : State) : Prop where
  direction : DirectionInv s
  latch : LatchInv s
  sequence : SequenceInv s
  capacity : CapacityInv s
  result : ResultInv s

/-- The drive invariant (R146): no byte was clocked out with the driver disabled, and none is left to be. -/
abbrev DriveInv (s : State) : Prop :=
  (s.dir = .receive → s.txq = []) ∧ (s.st = .rxEnable → s.txq = []) ∧
    ∀ b, Event.wire b false ∉ s.history

/-- A running host loop is within its attempts (R222, R226). -/
abbrev LoopInv (s : State) : Prop :=
  ∀ l, s.hostLoop = some l → 1 ≤ l.attempts ∧ l.attempts ≤ l.maxAttempts

/-- An unending run: in every state the turn that the schedule names next is taken. Any turn may be (R21). The agenda plays no
part: it is how `step` is told a schedule's beginning. -/
def IsRun (states : Nat → State) (turns : Nat → Turn) : Prop :=
  ∀ n, takeTurn (turns n) (states n) = .next (states (n + 1))

/-- Weak fairness (R21): an agent whose step stays enabled eventually takes it. -/
def WeaklyFair (states : Nat → State) (turns : Nat → Turn) : Prop :=
  ∀ (a : Agent) (n : Nat), (∀ m, n ≤ m → a.enabled (states m) = true) → ∃ m, n ≤ m ∧ (turns m).serves = some a

/-- The bytes written to the UART, in order. -/
def writesOf : List Event → List Byte := List.filterMap fun
  | .txWrite b => some b
  | _ => none

/-- The bytes clocked out onto the wire, in order. -/
def wiresOf : List Event → List Byte := List.filterMap fun
  | .wire b _ => some b
  | _ => none

/-- The bytes that arrived in the receive buffer, in order. -/
def arrivalsOf : List Event → List Byte := List.filterMap fun
  | .rxArrive b => some b
  | _ => none

/-- How many bytes an event takes out of the receive buffer (R54, R56). -/
def Event.taken : Event → Nat
  | .rxRead _ => 1
  | .rxDrop n => n
  | _ => 0

/-- How many bytes were taken out of the receive buffer. -/
def takenOf (h : List Event) : Nat := (h.map Event.taken).sum

/-- How many results were published. -/
def publishedOf : List Event → Nat := List.countP fun
  | .publish _ _ _ => true
  | _ => false

/-- How many requests were taken, accepted or rejected. -/
def requestsOf : List Event → Nat := List.countP fun
  | .accept _ => true
  | .reject _ => true
  | _ => false

/-- The number of results still to be published: 1 while a result is pending. -/
def State.pending (s : State) : Nat := if s.st.resultPending then 1 else 0

/-- The events of the block's own steps (R39). -/
def blockEvents : List Event → List Event := List.filter fun
  | .wire _ _ => false
  | .rxArrive _ => false
  | .rxOverrun _ => false
  | _ => true

/-- Where the settle wait stands in the block's events (R147). -/
abbrev SettleInv (s : State) : Prop :=
  (s.st = .txSettle → ∃ before, blockEvents s.history = before ++ [.setDir .transmit]) ∧
  (s.st = .txByte0 → ∃ before, blockEvents s.history = before ++ [.setDir .transmit, .wait .drvSettle])

/-- Two states that agree on all that the rest of the current transaction, or the next one, may read (R29): the request,
the environment, and, inside a transaction, what that transaction itself has written. -/
structure SameTransaction (s t : State) : Prop where
  st : s.st = t.st
  dir : s.dir = t.dir
  txq : s.txq = t.txq
  rxb : s.rxb = t.rxb
  reqValid : s.reqValid = t.reqValid
  req : s.req = t.req
  params : s.params = t.params
  agenda : s.agenda = t.agenda
  hostLoop : s.hostLoop = t.hostLoop
  latch : s.st ≠ .idle → s.latch = t.latch
  cnt : s.st = .rxLo ∨ s.st = .rxHi ∨ s.st = .verify → s.cnt = t.cnt
  low : s.st = .rxHi → s.raw.extractLsb' 0 8 = t.raw.extractLsb' 0 8
  raw : s.st = .verify → s.raw = t.raw
  result : s.st = .postFlush ∨ s.st = .quiet → s.resultView = t.resultView ∧ s.rNew = t.rNew

/-- The least length of a wait, in microseconds (R250, R257): an obligation on the hardware that realises the step. -/
def WaitKind.minimum (p : Params) : WaitKind → Nat
  | .drvSettle => p.tDrvSettle
  | .rspWait => p.tRspWait
  | .quiet => p.tQuiet
  | .extHoldoff => p.tExtHoldoff

/-- The turnaround is fast enough (R253): shorter than the device's response start latency. -/
def turnaroundInTime (p : Params) (turnaround : Nat) : Prop := ∃ latency, p.tDevLatency = some latency ∧ turnaround < latency

/-- The response window is long enough (R254): the latency plus the time of two bytes. -/
def responseWindowOk (p : Params) (byteTime : Nat) : Prop :=
  ∃ latency, p.tDevLatency = some latency ∧ latency + 2 * byteTime ≤ p.tRspWait

end Sys2Proof.Machine
end

