-- ==== Sys2Proof/Certificates/Slice0/Obligations.lean ====
section
/-! DEFINITION. The statements for the provers, family by family. Conclusions of the form `exec i s = .next { s with … }`
say the new values and, in one, that everything else is unchanged. -/

open Sys2Proof Sys2Proof.Machine

/-! ### Checksum validator (40_checksum.md) -/

/-- R112, which the spec derives from R110: `verify` compares each check bit with the inverted parity of its half of the
payload bits. -/
def Obligations.VerifyIsParityOfEachHalf : Prop :=
  ∀ raw : Word, verify raw =
    ((raw.getLsbD 15 == !(raw.getLsbD 13 ^^ raw.getLsbD 11 ^^ raw.getLsbD 9 ^^ raw.getLsbD 7 ^^ raw.getLsbD 5
        ^^ raw.getLsbD 3 ^^ raw.getLsbD 1))
      && (raw.getLsbD 14 == !(raw.getLsbD 12 ^^ raw.getLsbD 10 ^^ raw.getLsbD 8 ^^ raw.getLsbD 6 ^^ raw.getLsbD 4
        ^^ raw.getLsbD 2 ^^ raw.getLsbD 0)))

/-- R113, R114, which the spec derives from R110: a payload passes under the device-side check field and under no other,
so the words that pass are exactly the device-side words, one for each of the `2^14 = 16384` payloads. -/
def Obligations.OneCheckFieldPassesForEachPayload : Prop :=
  (∀ (m : BitVec 14) (c : BitVec 2), verify (c ++ m) = true ↔ c = csum m) ∧
  (∀ m : BitVec 14, verify (enc m) = true ∧ (enc m).extractLsb' 0 14 = m) ∧
  (∀ raw : Word, verify raw = true → ∃ m : BitVec 14, enc m = raw)

/-- R115, which the spec derives from R112: one flipped bit of a passing word is always detected, two flipped bits
exactly when their indices differ in parity. -/
def Obligations.SingleFlipDetectedDoubleFlipByIndexParity : Prop :=
  (∀ (raw : Word) (i : Nat), i < 16 → verify raw = true → verify (raw ^^^ BitVec.twoPow 16 i) = false) ∧
  (∀ (raw : Word) (i j : Nat), i < 16 → j < 16 → i ≠ j → verify raw = true →
    verify (raw ^^^ BitVec.twoPow 16 i ^^^ BitVec.twoPow 16 j) = decide (i % 2 = j % 2))

/-! ### Position and turn-count decoder (41_decode.md) -/

/-- R125, R126: a position is the payload, or the payload divided by 4 and rounded down. -/
def Obligations.PositionIsPayloadOrItsQuarter : Prop :=
  ∀ raw : Word,
    (decodePosition raw .res14).toNat = raw.toNat % 16384 ∧
    (decodePosition raw .res12).toNat = raw.toNat % 16384 / 4

/-- R127: a turn count is the sign-extended payload, in the range -8192 to 8191. -/
def Obligations.TurnsAreTheSignExtendedPayload : Prop :=
  ∀ raw : Word,
    decodeTurns raw = (raw.extractLsb' 0 14).signExtend 16 ∧
    (decodeTurns raw).toInt = (raw.extractLsb' 0 14).toInt ∧
    -8192 ≤ (decodeTurns raw).toInt ∧ (decodeTurns raw).toInt ≤ 8191

/-- R129 to R131, which the spec derives from R125 to R127: check bits play no part in a reading, no position is the
sentinel, and the turn count that shares the sentinel's pattern is the one of payload 0x3FFF. -/
def Obligations.ReadingsIgnoreCheckBitsAndPositionsAvoidSentinel : Prop :=
  (∀ (m : BitVec 14) (c c' : BitVec 2) (res : Resolution),
    decodePosition (c ++ m) res = decodePosition (c' ++ m) res ∧ decodeTurns (c ++ m) = decodeTurns (c' ++ m)) ∧
  (∀ (raw : Word) (res : Resolution), decodePosition raw res ≠ 0xFFFF#16) ∧
  (∀ raw : Word, decodeTurns raw = 0xFFFF#16 ↔ raw.extractLsb' 0 14 = 0x3FFF#14)

/-! ### Encodings (30_encoding.md) -/

/-- Decoding the wire bytes of a well-formed command, whatever follows them, gives the command and the rest. The
resolution is not on the wire: for `GETPOS` it is the argument. -/
def Obligations.WireDecodeOfEncodeIsTheCommand : Prop :=
  ∀ (i : Instr) (res : Resolution) (rest : List Byte), i.wellFormed = true →
    (∀ base r, i = .getpos base r → r = res) →
    decodeWire res (encode i ++ rest) = .ok (i, rest)

/-- What the decoder accepts is well formed and encodes to the very bytes it was read from. -/
def Obligations.WireEncodeOfDecodeIsTheBytes : Prop :=
  ∀ (res : Resolution) (bytes rest : List Byte) (i : Instr),
    decodeWire res bytes = .ok (i, rest) → i.wellFormed = true ∧ encode i ++ rest = bytes

/-- The request port: presenting a well-formed command and reading it back gives the command, and a request that decodes
is the presentation of what it decodes to, the fields the command does not name included. -/
def Obligations.RequestDecodeAndEncodeAgree : Prop :=
  (∀ (i : Instr) (lines : Request), i.wellFormed = true → decodeRequest (encodeRequest i lines) = .ok i) ∧
  (∀ (r : Request) (i : Instr), decodeRequest r = .ok i → i.wellFormed = true ∧ encodeRequest i r = r)

/-- R90, by the matches and masks of the command map: which table words are which command. -/
def Obligations.CommandMapByMatchAndMask : Prop :=
  (∀ w : BitVec 8,
    (w &&& 0x03 = 0x00 → decodeTableWord 8 w.toNat = some (.getpos (w &&& 0xFC) .res14)) ∧
    (w &&& 0x03 = 0x01 → decodeTableWord 8 w.toNat = some (.getturns (w &&& 0xFC))) ∧
    (w &&& 0x03 = 0x03 → decodeTableWord 8 w.toNat = some (.reservedModifier (w &&& 0xFC)))) ∧
  (∀ w : BitVec 16,
    (w &&& 0x03FF = 0x025E → decodeTableWord 16 w.toNat = some (.setzero (w.extractLsb' 8 8 &&& 0xFC))) ∧
    (w &&& 0x03FF = 0x0275 → decodeTableWord 16 w.toNat = some (.resetdev (w.extractLsb' 8 8 &&& 0xFC))) ∧
    (w &&& 0x0300 = 0x0200 → w &&& 0x03FF ≠ 0x025E → w &&& 0x03FF ≠ 0x0275 →
      decodeTableWord 16 w.toNat =
        some (.undefinedSubCommand (w.extractLsb' 8 8 &&& 0xFC) (w.extractLsb' 0 8))))

/-- The example of R90 at base 0x54, bit by bit. -/
def Obligations.ExampleWordsOfBase54 : Prop :=
  decodeWire .res14 [0b01010100] = .ok (.getpos 0x54 .res14, []) ∧
  decodeWire .res12 [0b01010100] = .ok (.getpos 0x54 .res12, []) ∧
  decodeWire .res14 [0b01010101] = .ok (.getturns 0x54, []) ∧
  decodeWire .res14 [0b01010110, 0b01011110] = .ok (.setzero 0x54, []) ∧
  decodeWire .res14 [0b01010110, 0b01110101] = .ok (.resetdev 0x54, []) ∧
  decodeWire .res14 [0b01010111] = .ok (.reservedModifier 0x54, []) ∧
  decodeWire .res14 [0b01010110, 0b00000000] = .ok (.undefinedSubCommand 0x54 0x00, [])

/-- R161: the legal requests are exactly those that stand for one of the four commands that are sent. -/
def Obligations.LegalRequestsAreTheFourSentCommands : Prop :=
  ∀ r : Request, legal r = true ↔
    (r.addr.toNat % 4 = 0 ∧ ∃ i, decodeRequest r = .ok i ∧
      ((∃ base res, i = .getpos base res) ∨ (∃ base, i = .getturns base) ∨ (∃ base, i = .setzero base) ∨
        ∃ base, i = .resetdev base))

/-! ### The byte channel and its agents (10_state.md, 20_memory.md) -/

/-- R36: the UART transmitter clocks out the head of `TXQ`, driven exactly if `DIR` is Transmit; with `TXQ` empty
nothing moves. -/
def Obligations.UartTurnClocksOutTheHead : Prop :=
  ∀ s : State,
    (∀ b q, s.txq = b :: q →
      takeTurn .uart s = .next { s with txq := q, history := s.history ++ [.wire b (s.dir == .transmit)] }) ∧
    (s.txq = [] → takeTurn .uart s = .next s)

/-- R37: the line appends any byte in any state, or loses it where the receive buffer is full. -/
def Obligations.LineTurnAppendsOrLosesTheByte : Prop :=
  ∀ (s : State) (b : Byte),
    (s.rxb.length < s.params.rxCap →
      takeTurn (.line b) s = .next { s with rxb := s.rxb ++ [b], history := s.history ++ [.rxArrive b] }) ∧
    (s.params.rxCap ≤ s.rxb.length → takeTurn (.line b) s = .next { s with history := s.history ++ [.rxOverrun b] })

/-- R56: `RxDrop(n)` removes the first `n` bytes and records itself; what it leaves in `RXB` is what `n` calls of
`RxRead` leave, each of which has a byte to read. -/
def Obligations.RxDropIsThatManyReads : Prop :=
  ∀ (n : Nat) (s : State), n ≤ s.rxb.length →
    s.rxDrop n = { s with rxb := s.rxb.drop n, history := s.history ++ [.rxDrop n] } ∧
    ∃ t : State, Nat.rec (motive := fun _ => Option State) (some s)
        (fun _ acc => acc.bind fun u => u.rxRead.map Prod.snd) n = some t ∧
      t.rxb = (s.rxDrop n).rxb

/-- R64: bytes reach the wire in the order written. What was clocked out, followed by `TXQ`, and what was written keep
differing by the same bytes in front. -/
def Obligations.BytesReachTheWireInWriteOrder : Prop :=
  ∀ (s t : State) (before : List Byte), step s = .next t →
    wiresOf s.history ++ s.txq = before ++ writesOf s.history →
    wiresOf t.history ++ t.txq = before ++ writesOf t.history

/-- R64: bytes leave `RXB` in arrival order. `RXB` is always what arrived (after what was there before), less as many
bytes from the front as the block took. -/
def Obligations.BytesLeaveTheReceiveBufferInArrivalOrder : Prop :=
  ∀ (s t : State) (before : List Byte), step s = .next t →
    takenOf s.history ≤ (before ++ arrivalsOf s.history).length →
    s.rxb = (before ++ arrivalsOf s.history).drop (takenOf s.history) →
    takenOf t.history ≤ (before ++ arrivalsOf t.history).length ∧
    t.rxb = (before ++ arrivalsOf t.history).drop (takenOf t.history)

/-! ### Turnaround (42_turnaround.md) -/

/-- R141: `enterTransmit`. -/
def Obligations.EnterTransmitFromTxEnable : Prop :=
  ∀ (i : Instr) (s : State), s.inFlight = some i → s.st = .txEnable →
    exec i s = .next { s with st := .txSettle, dir := .transmit, history := s.history ++ [.setDir .transmit] }

/-- R142: `enterReceive`. -/
def Obligations.EnterReceiveFromRxEnable : Prop :=
  ∀ (i : Instr) (s : State), s.inFlight = some i → s.st = .rxEnable →
    exec i s = .next { s with st := .rxWait, dir := .receive, history := s.history ++ [.setDir .receive] }

/-- R143: TX_DRAIN waits for transmission complete, whatever the queue's capacity (so `TXBE` is not read). -/
def Obligations.TxDrainWaitsForTransmissionComplete : Prop :=
  ∀ (i : Instr) (s : State), s.inFlight = some i → s.st = .txDrain →
    (s.txq = [] → exec i s = .next { s with st := .rxEnable }) ∧
    (s.txq ≠ [] → exec i s = .next s)

/-- R24: with two lines, exactly the enable of the present direction is asserted; with one, it is asserted in Transmit.
The level that asserts a line is its polarity. -/
def Obligations.ControlOutputsFollowDirection : Prop :=
  ∀ (s : State) (pol : CtrlPolarity),
    (s.params.ctrlStyle = .deRePair → ∃ de re, s.controls = .pair de re ∧ (de = true ↔ s.dir = .transmit) ∧
      (re = true ↔ s.dir = .receive) ∧
      controlLevels pol s.controls =
        .pair (if de then pol.deActiveHigh else !pol.deActiveHigh) (if re then pol.reActiveHigh else !pol.reActiveHigh)) ∧
    (s.params.ctrlStyle = .singleLine → ∃ txen, s.controls = .single txen ∧ (txen = true ↔ s.dir = .transmit) ∧
      controlLevels pol s.controls = .single (if txen then pol.txenActiveHigh else !pol.txenActiveHigh))

/-- R145, which the spec derives: every step, of any agent, keeps the direction invariant. -/
def Obligations.EveryStepKeepsTheDirectionInvariant : Prop :=
  ∀ s t : State, DirectionInv s → step s = .next t → DirectionInv t

/-- R146, which the spec derives: if the block never leaves reset with bytes in `TXQ`, no byte is ever clocked out
undriven. -/
def Obligations.EveryStepKeepsTheDriveInvariant : Prop :=
  ∀ s t : State, DirectionInv s → DriveInv s → (s.nextTurn = .rst → s.txq = []) → step s = .next t → DriveInv t

/-- R147, which the spec derives: the settle wait comes after `SetDir(Transmit)` and before the first byte, with no
other block event between; and bytes are written in TX_BYTE0 and TX_BYTE1 only. -/
def Obligations.SettleWaitComesBeforeTheFirstByte : Prop :=
  (∀ s t : State, SettleInv s → step s = .next t → SettleInv t) ∧
  (∀ (s t : State) (es : List Event) (b : Byte), step s = .next t → t.history = s.history ++ es →
    Event.txWrite b ∈ es → s.st = .txByte0 ∨ s.st = .txByte1) ∧
  (∀ s t : State, step s = .next t → t.st = .txByte1 → s.st = .txByte1 ∨ s.st = .txByte0)

/-! ### The framer's states, for the command in flight (43_transaction.md section 2) -/

/-- R163: in IDLE a presented request is taken: latched if legal, rejected if not. Without one the block has no step.
What becomes of `req_valid` is left to the host (log entry 7). -/
def Obligations.IdleTakesAPresentedRequest : Prop :=
  ∀ s : State, s.st = .idle →
    (s.reqValid = true → legal s.req = true → ∃ v, takeTurn .block s = .next { s with
      latch := s.req, rNew := false, reqValid := v, st := .preFlush, history := s.history ++ [.accept s.req] }) ∧
    (s.reqValid = true → legal s.req = false → ∃ v, takeTurn .block s = .next { s with
      reqValid := v, rStatus := .illegalRequest, rOk := false, rData := 0xFFFF#16, rCount := 0#8, rNew := true
      written := true, history := s.history ++ [.reject s.req, .publish .illegalRequest 0xFFFF#16 0#8] }) ∧
    (s.reqValid = false → takeTurn .block s = .next s)

/-- R164, R176: both flushes drop exactly the bytes present. -/
def Obligations.FlushesDropTheBytesPresent : Prop :=
  ∀ (i : Instr) (s : State), s.inFlight = some i →
    (s.st = .preFlush → exec i s = .next { s with
      st := .txEnable, rxb := [], history := s.history ++ [.rxDrop s.rxb.length] }) ∧
    (s.st = .postFlush → exec i s = .next { s with
      st := .quiet, rxb := [], history := s.history ++ [.rxDrop s.rxb.length] })

/-- R166, R171, R177: the waits are single steps with no effect but their event; after an extended command the last one
is the holdoff. -/
def Obligations.WaitsAreSingleSteps : Prop :=
  ∀ (i : Instr) (s : State), s.inFlight = some i →
    (s.st = .txSettle → exec i s = .next { s with st := .txByte0, history := s.history ++ [.wait .drvSettle] }) ∧
    (s.st = .rxWait → exec i s = .next { s with st := .rxCheck, history := s.history ++ [.wait .rspWait] }) ∧
    (s.st = .quiet → s.latch.cmd = 0b10#2 → exec i s = .next { s with
      st := .idle, history := s.history ++ [.wait .extHoldoff] }) ∧
    (s.st = .quiet → s.latch.cmd ≠ 0b10#2 → exec i s = .next { s with
      st := .idle, history := s.history ++ [.wait .quiet] })

/-- R53, R162, R167: TX_BYTE0 writes the host byte, `base` plus the modifier, or holds while the queue is full. -/
def Obligations.TxByte0WritesTheHostByte : Prop :=
  ∀ (i : Instr) (s : State), s.inFlight = some i → s.st = .txByte0 →
    (s.txq.length < s.params.txqCap → ∃ b : Byte,
      b.toNat = i.base.toNat + i.modifier.toNat ∧
      exec i s = .next { s with
        st := if i.modifier = 0b10#2 then .txByte1 else .txDrain
        txq := s.txq ++ [b], history := s.history ++ [.txWrite b] }) ∧
    (s.params.txqCap ≤ s.txq.length → exec i s = .next s)

/-- R168, R182, R183: TX_BYTE1 writes the sub-command, 0x5E for `SETZERO` and 0x75 for `RESETDEV`, or holds. -/
def Obligations.TxByte1WritesTheSubCommand : Prop :=
  ∀ (i : Instr) (b : Byte) (s : State), s.inFlight = some i → s.st = .txByte1 →
    (∃ base, i = .setzero base ∧ b = 0x5E#8) ∨ (∃ base, i = .resetdev base ∧ b = 0x75#8) →
    (s.txq.length < s.params.txqCap → exec i s = .next { s with
      st := .txDrain, txq := s.txq ++ [b], history := s.history ++ [.txWrite b] }) ∧
    (s.params.txqCap ≤ s.txq.length → exec i s = .next s)

/-- R172 on a wrong count: every command publishes BYTE_COUNT_MISMATCH with the count seen, at most 255, and reads no
byte. The published data is 0xFFFF for every command but `GETTURNS`, of whose data this says nothing
(93_implementation_defined.md). -/
def Obligations.WrongByteCountIsReported : Prop :=
  ∀ (i : Instr) (s : State), s.inFlight = some i → s.st = .rxCheck →
    s.rxb.length ≠ (if s.latch.cmd = 0b10#2 then s.params.extRspBytes else 2) →
    ∃ (d : Word) (c : Byte), c.toNat = min s.rxb.length 255 ∧ ((∀ base, i ≠ .getturns base) → d = 0xFFFF#16) ∧
      exec i s = .next { s with
        st := .postFlush, cnt := c, rStatus := .byteCountMismatch, rOk := false, rData := d, rCount := c, rNew := true
        written := true, history := s.history ++ [.publish .byteCountMismatch d c] }

/-- R172 on the expected count: a read goes on to read its two bytes. -/
def Obligations.ReadGoesOnWithTwoBytes : Prop :=
  ∀ (i : Instr) (s : State), (∃ base res, i = .getpos base res) ∨ (∃ base, i = .getturns base) →
    s.inFlight = some i → s.st = .rxCheck → s.rxb.length = 2 →
    exec i s = .next { s with st := .rxLo, cnt := 2#8 }

/-- R172 on the expected count: an extended command is done, with status OK and data 0. -/
def Obligations.ExtendedCommandCompletesOnExpectedCount : Prop :=
  ∀ (i : Instr) (s : State), (∃ base, i = .setzero base) ∨ (∃ base, i = .resetdev base) →
    s.inFlight = some i → s.st = .rxCheck → s.rxb.length = s.params.extRspBytes →
    ∃ c : Byte, c.toNat = min s.rxb.length 255 ∧ exec i s = .next { s with
      st := .postFlush, cnt := c, rStatus := .ok, rOk := true, rData := 0#16, rCount := c, rNew := true, written := true
      history := s.history ++ [.publish .ok 0#16 c] }

/-- R173, R174: RX_LO and RX_HI each take the oldest byte of `RXB`, the first into the low half of `RAW`, the second
into the high half, so that after both `RAW` is the second byte read above the first (R58). -/
def Obligations.ResponseWordIsAssembledLowByteFirst : Prop :=
  ∀ (i : Instr) (s : State) (b : Byte) (rest : List Byte), s.inFlight = some i → s.rxb = b :: rest →
    (s.st = .rxLo → exec i s = .next { s with
      st := .rxHi, rxb := rest, raw := s.raw.extractLsb' 8 8 ++ b, history := s.history ++ [.rxRead b] }) ∧
    (s.st = .rxHi → exec i s = .next { s with
      st := .verify, rxb := rest, raw := b ++ s.raw.extractLsb' 0 8, history := s.history ++ [.rxRead b] }) ∧
    (s.st = .rxLo → ∀ hi rest', rest = hi :: rest' → ∃ t u, exec i s = .next t ∧ exec i t = .next u ∧ u.raw = hi ++ b)

/-- R175, R180: VERIFY of `GETPOS`. A word that passes gives its position with status OK, any other CHECKSUM_MISMATCH
with the sentinel. -/
def Obligations.GetposPublishesThePosition : Prop :=
  ∀ (base : Byte) (res : Resolution) (s : State), s.inFlight = some (.getpos base res) → s.st = .verify →
    (verify s.raw = true → ∃ d : Word,
      d.toNat = (match res with | .res14 => s.raw.toNat % 16384 | .res12 => s.raw.toNat % 16384 / 4) ∧
      exec (.getpos base res) s = .next { s with
        st := .postFlush, rStatus := .ok, rOk := true, rData := d, rCount := s.cnt, rNew := true, written := true
        history := s.history ++ [.publish .ok d s.cnt] }) ∧
    (verify s.raw = false → exec (.getpos base res) s = .next { s with
      st := .postFlush, rStatus := .checksumMismatch, rOk := false, rData := 0xFFFF#16, rCount := s.cnt, rNew := true
      written := true, history := s.history ++ [.publish .checksumMismatch 0xFFFF#16 s.cnt] })

/-- R175, R181: VERIFY of `GETTURNS`. A word that passes gives its turn count with status OK; any other
CHECKSUM_MISMATCH, with data this says nothing about (93_implementation_defined.md: claims must read `R_OK`). -/
def Obligations.GetturnsPublishesTheTurnCount : Prop :=
  ∀ (base : Byte) (s : State), s.inFlight = some (.getturns base) → s.st = .verify →
    (verify s.raw = true → exec (.getturns base) s = .next { s with
      st := .postFlush, rStatus := .ok, rOk := true, rData := (s.raw.extractLsb' 0 14).signExtend 16, rCount := s.cnt
      rNew := true, written := true
      history := s.history ++ [.publish .ok ((s.raw.extractLsb' 0 14).signExtend 16) s.cnt] }) ∧
    (verify s.raw = false → ∃ d : Word, exec (.getturns base) s = .next { s with
      st := .postFlush, rStatus := .checksumMismatch, rOk := false, rData := d, rCount := s.cnt, rNew := true
      written := true, history := s.history ++ [.publish .checksumMismatch d s.cnt] })

/-! ### The commands (43_transaction.md section 3) -/

/-- The four commands that are sent, at an aligned base address, are accepted in IDLE. Fields the command does not name
are latched as the port drives them (D29). That `exec` takes the command's own request in IDLE, whatever `req_valid`
is, is the model's choice (log entry 17): R163 gives the block no step while `req_valid` is 0. What becomes of
`req_valid` is left open (log entry 7). -/
def Obligations.IdleAcceptsTheFourCommands : Prop :=
  ∀ (base : Byte) (res : Resolution) (s : State), s.st = .idle → base.toNat % 4 = 0 →
    ∀ (i : Instr) (r : Request),
      (i = .getpos base res ∧ r = ⟨base, 0#2, s.req.sub, res == .res12⟩) ∨
      (i = .getturns base ∧ r = ⟨base, 1#2, s.req.sub, s.req.res12⟩) ∨
      (i = .setzero base ∧ r = ⟨base, 2#2, 0x5E#8, s.req.res12⟩) ∨
      (i = .resetdev base ∧ r = ⟨base, 2#2, 0x75#8, s.req.res12⟩) →
      ∃ v, exec i s = .next { s with
        st := .preFlush, latch := r, rNew := false, reqValid := v, history := s.history ++ [.accept r] }

/-- R184, R185, R186: a reserved modifier, an undefined sub-command and any command at a misaligned address publish
ILLEGAL_REQUEST in IDLE, and nothing else changes: no byte is written, `DIR`, `RXB` and the latch stay. That a
misaligned term of `Instr` is run as a command, whatever `req_valid` is, is the model's choice (log entry 17), and
what becomes of `req_valid` is left open (log entry 7). -/
def Obligations.IllegalRequestsAreRejectedInIdle : Prop :=
  ∀ (i : Instr) (s : State), s.st = .idle →
    (∃ base, i = .reservedModifier base) ∨
    (∃ base sub, i = .undefinedSubCommand base sub ∧ sub ≠ 0x5E#8 ∧ sub ≠ 0x75#8) ∨ i.base.toNat % 4 ≠ 0 →
    ∃ v, exec i s = .next { s with
      rStatus := .illegalRequest, rOk := false, rData := 0xFFFF#16, rCount := 0#8, rNew := true, written := true, reqValid := v
      history := s.history ++ [.reject (encodeRequest i s.req), .publish .illegalRequest 0xFFFF#16 0#8] }

/-- R189: outside IDLE a request that is not the one in flight waits; nothing changes. That `exec` of such a command is a
step that changes nothing is the model's choice (log entry 17). -/
def Obligations.OtherRequestsWaitForIdle : Prop :=
  ∀ (i : Instr) (s : State), s.st ≠ .idle → s.inFlight ≠ some i → exec i s = .next s

/-- R189: outside IDLE the block takes no request, a request held on the port waits for IDLE, and nothing but reset ends
the transaction before its QUIET step. -/
def Obligations.NoAbortAndNoOverlap : Prop :=
  ∀ s t : State, s.st ≠ .idle → s.nextTurn ≠ .rst → step s = .next t →
    s.reqReady = false ∧ t.latch = s.latch ∧ requestsOf t.history = requestsOf s.history ∧
    (t.st = .idle → s.st = .quiet) ∧
    (s.nextTurn = .block ∨ s.nextTurn = .uart ∨ (∃ b, s.nextTurn = .line b) → t.reqValid = s.reqValid ∧ t.req = s.req)

/-- The commands as R180 to R183 write them out are the framer of R164 to R177 run on their latched request. Which
command is in flight is the model's attribution (log entry 17). -/
def Obligations.CommandsRefineTheFramer : Prop :=
  ∀ (i : Instr) (s : State), s.inFlight = some i → exec i s = framerStep s

/-- No command ever stops the machine: in every state of the invariant, every command has a next state. What `exec` does
where the command is not the one in flight, `req_valid` 0 in IDLE included, is the model's choice (log entry 17). -/
def Obligations.EveryCommandHasANextState : Prop :=
  ∀ (i : Instr) (s : State), Inv s → ∃ t, exec i s = .next t

/-- Who writes what: each register of the block is written in its own states only, and the rest of the machine not at
all. -/
def Obligations.CommandsWriteTheirOwnRegistersOnly : Prop :=
  ∀ (i : Instr) (s t : State), exec i s = .next t →
    (t.latch ≠ s.latch → s.st = .idle) ∧
    (t.dir ≠ s.dir → s.st = .txEnable ∨ s.st = .rxEnable) ∧
    (t.cnt ≠ s.cnt → s.st = .rxCheck) ∧
    (t.raw ≠ s.raw → s.st = .rxLo ∨ s.st = .rxHi) ∧
    (t.resultView ≠ s.resultView ∨ t.rNew ≠ s.rNew ∨ t.written ≠ s.written →
      s.st = .idle ∨ s.st = .rxCheck ∨ s.st = .verify) ∧
    (t.txq ≠ s.txq → (s.st = .txByte0 ∨ s.st = .txByte1) ∧ ∃ b, t.txq = s.txq ++ [b]) ∧
    (t.rxb ≠ s.rxb → (s.st = .preFlush ∨ s.st = .rxLo ∨ s.st = .rxHi ∨ s.st = .postFlush) ∧ t.rxb <:+ s.rxb) ∧
    (t.reqValid ≠ s.reqValid → s.st = .idle) ∧
    t.req = s.req ∧ t.params = s.params ∧ t.agenda = s.agenda ∧
    t.hostLoop = s.hostLoop ∧ t.hostReading = s.hostReading ∧ t.hostOutcome = s.hostOutcome

/-- A step takes the next turn off the agenda, the model's form of R21's schedule (log entry 3). The block's turn runs
the command the presented request stands for and then, step by step, the command in flight: attributing the FSM's
steps to the commands is the model's choice (log entry 17). -/
def Obligations.StepRunsTheDecodedCommand : Prop :=
  ∀ (i : Instr) (s : State) (rest : List Turn), s.agenda = .block :: rest →
    (s.st = .idle → s.reqValid = true → decodeRequest s.req = .ok i → step s = exec i { s with agenda := rest }) ∧
    (s.inFlight = some i → step s = exec i { s with agenda := rest }) ∧
    ∀ (t : Turn) (u : State), u.agenda = t :: rest → step u = takeTurn t { u with agenda := rest }

/-- No byte with the reserved modifier in its low bits is ever written to the UART (R84, R91). -/
def Obligations.ReservedModifierIsNeverTransmitted : Prop :=
  ∀ (s t : State) (es : List Event) (b : Byte), Inv s → step s = .next t → t.history = s.history ++ es →
    Event.txWrite b ∈ es → modifierOf b ≠ 0b11#2

/-! ### Whole transactions (43_transaction.md section 4) -/

/-- A `GETPOS` transaction from IDLE, with stale bytes in `RXB` and two bytes delivered in the response wait: 14 block
steps, one UART step and two line steps lead back to IDLE with the result published and the events of R190. The
schedule as an agenda and `req_valid` falling when the request is taken are the model's choices (log entries 3 and
7). -/
def Obligations.GetposTransaction : Prop :=
  ∀ (base lo hi : Byte) (res : Resolution) (sub : Byte) (s : State),
    base.toNat % 4 = 0 → s.st = .idle → s.txq = [] → 1 ≤ s.params.txqCap → 2 ≤ s.params.rxCap → s.hostLoop = none →
    s.reqValid = true → s.req = ⟨base, 0#2, sub, res == .res12⟩ →
    s.agenda = [.block, .block, .block, .block, .block, .uart, .block, .block, .block, .line lo, .line hi, .block, .block,
      .block, .block, .block, .block] →
    ∃ (status : Status) (d : Word),
      (verify (hi ++ lo) = true → status = .ok ∧ d = decodePosition (hi ++ lo) res) ∧
      (verify (hi ++ lo) = false → status = .checksumMismatch ∧ d = 0xFFFF#16) ∧
      Host.Core.run core 17 s = .next { s with
        st := .idle, dir := .receive, latch := s.req, cnt := 2#8, raw := hi ++ lo, rStatus := status, rOk := status == .ok
        rData := d, rCount := 2#8, rNew := true, written := true, txq := [], rxb := [], reqValid := false, agenda := []
        history := s.history ++ [.accept s.req, .rxDrop s.rxb.length, .setDir .transmit, .wait .drvSettle, .txWrite base,
          .wire base true, .setDir .receive, .wait .rspWait, .rxArrive lo, .rxArrive hi, .rxRead lo, .rxRead hi,
          .publish status d 2#8, .rxDrop 0, .wait .quiet] }

/-- A `GETTURNS` transaction on the same schedule: host byte `base + 1`, and a turn count where the word passes; of the
data of a failed one nothing is said (93_implementation_defined.md). Agenda and `req_valid`: log entries 3 and 7. -/
def Obligations.GetturnsTransaction : Prop :=
  ∀ (base lo hi sub : Byte) (res12 : Bool) (s : State),
    base.toNat % 4 = 0 → s.st = .idle → s.txq = [] → 1 ≤ s.params.txqCap → 2 ≤ s.params.rxCap → s.hostLoop = none →
    s.reqValid = true → s.req = ⟨base, 1#2, sub, res12⟩ →
    s.agenda = [.block, .block, .block, .block, .block, .uart, .block, .block, .block, .line lo, .line hi, .block, .block,
      .block, .block, .block, .block] →
    ∃ (status : Status) (d : Word),
      (verify (hi ++ lo) = true → status = .ok ∧ d = decodeTurns (hi ++ lo)) ∧
      (verify (hi ++ lo) = false → status = .checksumMismatch) ∧
      Host.Core.run core 17 s = .next { s with
        st := .idle, dir := .receive, latch := s.req, cnt := 2#8, raw := hi ++ lo, rStatus := status, rOk := status == .ok
        rData := d, rCount := 2#8, rNew := true, written := true, txq := [], rxb := [], reqValid := false, agenda := []
        history := s.history ++ [.accept s.req, .rxDrop s.rxb.length, .setDir .transmit, .wait .drvSettle,
          .txWrite (base + 1#8), .wire (base + 1#8) true, .setDir .receive, .wait .rspWait, .rxArrive lo, .rxArrive hi,
          .rxRead lo, .rxRead hi, .publish status d 2#8, .rxDrop 0, .wait .quiet] }

/-- A `SETZERO` or `RESETDEV` transaction on a silent line: 12 block steps and two UART steps lead back to IDLE with
status OK where no response byte is expected (D9), both wire bytes sent and the holdoff kept. Agenda and
`req_valid`: log entries 3 and 7. -/
def Obligations.ExtendedTransaction : Prop :=
  ∀ (base sub : Byte) (res12 : Bool) (s : State),
    sub = 0x5E#8 ∨ sub = 0x75#8 →
    base.toNat % 4 = 0 → s.st = .idle → s.txq = [] → 2 ≤ s.params.txqCap → s.params.extRspBytes = 0 → s.hostLoop = none →
    s.reqValid = true → s.req = ⟨base, 2#2, sub, res12⟩ →
    s.agenda = [.block, .block, .block, .block, .block, .block, .uart, .uart, .block, .block, .block, .block, .block,
      .block] →
    Host.Core.run core 14 s = .next { s with
      st := .idle, dir := .receive, latch := s.req, cnt := 0#8, rStatus := .ok, rOk := true, rData := 0#16, rCount := 0
      rNew := true, written := true, rxb := [], reqValid := false, agenda := []
      history := s.history ++ [.accept s.req, .rxDrop s.rxb.length, .setDir .transmit, .wait .drvSettle,
        .txWrite (base + 2#8), .txWrite sub, .wire (base + 2#8) true, .wire sub true, .setDir .receive, .wait .rspWait,
        .publish .ok 0#16 0#8, .rxDrop 0, .wait .extHoldoff] }

/-- R188, which the spec derives. First: whatever turns the agenda holds, of any agent, a transaction returns to IDLE
within a bound set by their number, the capacity of the queue and the length of the command's sequence; after the
agenda the model's default turn runs, its choice of a schedule (log entry 3). The premises leave out the two host
turns that fault: a loop called with no attempts (R222) and a read before the first result (R241). Second: in every
unending run that is weakly fair (R21) a transaction returns to IDLE. -/
def Obligations.EveryTransactionReturnsToIdle : Prop :=
  (∀ s : State, Inv s → s.st ≠ .idle →
    (∀ c, Turn.call c 0 ∉ s.agenda) → (Turn.readResult ∈ s.agenda → s.written = true) →
    ∃ n, n ≤ s.agenda.length + s.params.txqCap + 16 ∧ ∃ t : State, Host.Core.run core n s = .next t ∧ t.st = .idle) ∧
  (∀ (states : Nat → State) (turns : Nat → Turn), Inv (states 0) → IsRun states turns → WeaklyFair states turns →
    ∀ n, ∃ m, n ≤ m ∧ (states m).st = .idle)

/-- R213, which the spec derives: every request that is taken publishes exactly once. Over any step but a reset, the
results published and the one still pending grow by as much as the requests taken. -/
def Obligations.EachRequestPublishesExactlyOnce : Prop :=
  ∀ s t : State, s.nextTurn ≠ .rst → step s = .next t →
    publishedOf t.history + t.pending + requestsOf s.history = publishedOf s.history + s.pending + requestsOf t.history

/-- R29, which the spec derives: what a transaction does depends on its request and the environment only. Two states
that agree on these, and inside a transaction on what it has itself written, take steps with the same events and
agree again. Only where the host reads the result port, outside a loop or in a loop that waits for its result, must
they agree on the result too. -/
def Obligations.TransactionsDependOnRequestAndEnvironmentOnly : Prop :=
  ∀ s s' t : State, SameTransaction s t →
    ((s.nextTurn = .readResult ∧ s.hostLoop = none) ∨
      (s.nextTurn = .hostLoop ∧ ∃ l, s.hostLoop = some l ∧ l.phase = .await) →
      s.resultView = t.resultView ∧ s.rNew = t.rNew ∧ s.written = t.written) →
    step s = .next s' →
    ∃ (t' : State) (es : List Event), step t = .next t' ∧ SameTransaction s' t' ∧
      s'.history = s.history ++ es ∧ t'.history = t.history ++ es

/-! ### The whole machine -/

/-- Every step of every agent keeps the invariant of the machine: direction, a legal latch, the capacities, what
RX_CHECK has established, and the agreement of the result registers. -/
def Obligations.EveryStepKeepsTheInvariant : Prop :=
  ∀ s t : State, Inv s → step s = .next t → Inv t

/-- The state after reset meets the invariants. Its empty queues, capacities and idle host are the model's choices (log
entries 1, 4 and 5). -/
def Obligations.ResetStateMeetsTheInvariants : Prop :=
  Inv State.reset ∧ DriveInv State.reset ∧ SettleInv State.reset ∧ LoopInv State.reset

/-- R42: the state after reset: the block's registers, the control outputs and the history; and reset leaves the UART's
queues as they are. -/
def Obligations.ResetStateHoldsTheListedValues : Prop :=
  State.reset.st = .idle ∧ State.reset.dir = .receive ∧ State.reset.latch = ⟨0#8, 0#2, 0#8, false⟩ ∧
  State.reset.cnt = 0 ∧ State.reset.raw = 0 ∧ State.reset.rStatus = .ok ∧ State.reset.rOk = false ∧
  State.reset.rData = 0xFFFF#16 ∧ State.reset.rCount = 0 ∧ State.reset.rNew = false ∧ State.reset.history = [] ∧
  controlOutputs .deRePair State.reset.dir = .pair false true ∧ controlOutputs .singleLine State.reset.dir = .single false ∧
  ∀ s : State, s.resetBlock.txq = s.txq ∧ s.resetBlock.rxb = s.rxb

/-- R240: the reset input, in any state; the UART's queues stay, and so does the request port. Nothing but reset ends a
transaction before its QUIET step. Left open here: whether the result registers count as unwritten again (log entry
6), and what becomes of a running host loop (log entry 15). -/
def Obligations.ResetInputLeavesUartStateAlone : Prop :=
  (∀ s : State, ∃ w l, takeTurn .rst s = .next { s with
    st := .idle, dir := .receive, latch := ⟨0#8, 0#2, 0#8, false⟩, cnt := 0#8, raw := 0, rStatus := .ok
    rOk := false, rData := 0xFFFF#16, rCount := 0#8, rNew := false, written := w, hostLoop := l
    history := s.history ++ [.reset] }) ∧
  (∀ s t : State, s.st ≠ .idle → s.nextTurn ≠ .rst → step s = .next t → t.st = .idle → s.st = .quiet)

/-- R27: the result registers change only by a publication, which sets all of them and `R_NEW`, or by reset. -/
def Obligations.ResultRegistersChangeOnlyByPublishing : Prop :=
  ∀ s t : State, s.nextTurn ≠ .rst → step s = .next t → t.resultView ≠ s.resultView →
    t.rNew = true ∧ ∃ es, t.history = s.history ++ es ∧
      Event.publish t.rStatus t.rData t.rCount ∈ es ∧ t.rOk = (t.rStatus == .ok)

/-- R39: a step appends to the history and reads nothing of it. -/
def Obligations.HistoryIsAppendedToAndNeverRead : Prop :=
  ∀ s t : State, step s = .next t →
    ∃ es, t.history = s.history ++ es ∧ ∀ h, step { s with history := h } = .next { t with history := h ++ es }

/-- R250: no step depends on a wait's length, the bus rate, the device latency, the control lines' style and polarity or
the addresses in use; and no step changes a parameter. -/
def Obligations.TimingParametersAreNeverRead : Prop :=
  ∀ (s t : State) (p : Params), p.txqCap = s.params.txqCap → p.rxCap = s.params.rxCap →
    p.extRspBytes = s.params.extRspBytes → step s = .next t →
    t.params = s.params ∧ step { s with params := p } = .next { t with params := p }

/-! ### The host (60_exceptions.md section 4) -/

/-- R241: a host read of the result port while `R_NEW` has never been 1 (`written`, log entry 6) is a fault. After that
one turn reads all four registers as they are (log entry 19), `R_NEW` up or not, and after a later reset it reads
the reset values of R42 (R220: such a host "reads stale or reset values"). The turns come off the agenda (log entry
3). -/
def Obligations.HostReadFaultsBeforeTheFirstResult : Prop :=
  (∀ (s : State) (rest : List Turn), s.agenda = .readResult :: rest → s.hostLoop = none →
    (s.written = false → step s = .fault .resultUnwritten) ∧
    (s.written = true → step s = .next { s with
      agenda := rest, hostReading := some ⟨s.rStatus, s.rOk, s.rData, s.rCount⟩ })) ∧
  (∀ (s : State) (rest : List Turn), s.agenda = .rst :: .readResult :: rest → s.hostLoop = none → s.written = true →
    ∃ t : State, Host.Core.run core 2 s = .next t ∧ t.agenda = rest ∧
      t.hostReading = some ⟨.ok, false, 0xFFFF#16, 0#8⟩)

/-- R222, R223: the steps of a host loop. A call with no attempts faults, any other starts at `k = 1`. A loop about to
make an attempt waits for `req_ready` and then presents the request of its call, `GETPOS` or `GETTURNS`. A loop that
waits goes on once its request is taken and `rsp_valid` is up (R222, R224, R225): it returns on OK and on
ILLEGAL_REQUEST, and on the two bus errors it returns at the last attempt and makes another before it. `READPOS` and
`READTURNS` call it with 3 attempts (R93). That a pass is two host steps, and what becomes of the last outcome, is
the model's (log entry 9). -/
def Obligations.HostLoopRetriesBusErrorsOnly : Prop :=
  (∀ (s : State) (rest : List Turn) (c : ReadCall) (n : Nat), s.agenda = .call c n :: rest → s.hostLoop = none →
    (n = 0 → step s = .fault .retryPrecondition) ∧
    (1 ≤ n → ∃ o, step s = .next { s with
      agenda := rest, hostLoop := some ⟨c, n, 1, .request⟩, hostOutcome := o })) ∧
  (∀ (s : State) (rest : List Turn) (l : HostLoop), s.agenda = .hostLoop :: rest → s.hostLoop = some l →
    l.phase = .request →
    (s.st ≠ .idle → step s = .next { s with agenda := rest }) ∧
    (s.st = .idle → ∃ r : Request,
      (∀ base res, l.call = .position base res → r = ⟨base, 0#2, s.req.sub, res == .res12⟩) ∧
      (∀ base, l.call = .turns base → r = ⟨base, 1#2, s.req.sub, s.req.res12⟩) ∧
      step s = .next { s with
        agenda := rest, reqValid := true, req := r, hostLoop := some { l with phase := .await } })) ∧
  (∀ (s : State) (rest : List Turn) (l : HostLoop), s.agenda = .hostLoop :: rest → s.hostLoop = some l →
    l.phase = .await →
    let seen : ResultView := ⟨s.rStatus, s.rOk, s.rData, s.rCount⟩
    (s.reqValid = true ∨ s.rNew = false → step s = .next { s with agenda := rest }) ∧
    (s.reqValid = false → s.rNew = true →
      (s.rStatus = .ok → step s = .next { s with
        agenda := rest, hostReading := some seen, hostLoop := none, hostOutcome := some ⟨s.rData, true, l.attempts⟩ }) ∧
      (s.rStatus = .illegalRequest → step s = .next { s with
        agenda := rest, hostReading := some seen, hostLoop := none
        hostOutcome := some ⟨0xFFFF#16, false, l.attempts⟩ }) ∧
      (s.rStatus = .byteCountMismatch ∨ s.rStatus = .checksumMismatch → l.attempts = l.maxAttempts →
        step s = .next { s with
          agenda := rest, hostReading := some seen, hostLoop := none
          hostOutcome := some ⟨0xFFFF#16, false, l.attempts⟩ }) ∧
      (s.rStatus = .byteCountMismatch ∨ s.rStatus = .checksumMismatch → l.attempts ≠ l.maxAttempts →
        step s = .next { s with
          agenda := rest, hostReading := some seen
          hostLoop := some { l with attempts := l.attempts + 1, phase := .request } }))) ∧
  (∀ (lines : Request) (base : Byte) (res : Resolution),
    (RequestStatement.readPos base res).turns lines = [.call (.position base res) 3] ∧
    (RequestStatement.readTurns base).turns lines = [.call (.turns base) 3])

/-- R226: a loop never goes beyond its `maxAttempts` attempts, and what it returns names between 1 and that many. -/
def Obligations.HostLoopNeverExceedsItsAttempts : Prop :=
  ∀ s t : State, LoopInv s → step s = .next t →
    LoopInv t ∧
    ∀ l out, s.hostLoop = some l → t.hostLoop = none → t.hostOutcome = some out →
      1 ≤ out.attempts ∧ out.attempts ≤ l.maxAttempts
end

