-- ==== Sys2Proof/Laws/State.lean ====
section
/-! SUPPORT. What each named update does to each field of the state: the field it writes, and that it leaves every other
one alone. -/

namespace Sys2Proof.Machine.State

@[simp] theorem record_st (e : Event) (s : State) : (s.record e).st = s.st := rfl
@[simp] theorem record_dir (e : Event) (s : State) : (s.record e).dir = s.dir := rfl
@[simp] theorem record_latch (e : Event) (s : State) : (s.record e).latch = s.latch := rfl
@[simp] theorem record_cnt (e : Event) (s : State) : (s.record e).cnt = s.cnt := rfl
@[simp] theorem record_raw (e : Event) (s : State) : (s.record e).raw = s.raw := rfl
@[simp] theorem record_rStatus (e : Event) (s : State) : (s.record e).rStatus = s.rStatus := rfl
@[simp] theorem record_rOk (e : Event) (s : State) : (s.record e).rOk = s.rOk := rfl
@[simp] theorem record_rData (e : Event) (s : State) : (s.record e).rData = s.rData := rfl
@[simp] theorem record_rCount (e : Event) (s : State) : (s.record e).rCount = s.rCount := rfl
@[simp] theorem record_rNew (e : Event) (s : State) : (s.record e).rNew = s.rNew := rfl
@[simp] theorem record_written (e : Event) (s : State) : (s.record e).written = s.written := rfl
@[simp] theorem record_txq (e : Event) (s : State) : (s.record e).txq = s.txq := rfl
@[simp] theorem record_rxb (e : Event) (s : State) : (s.record e).rxb = s.rxb := rfl
@[simp] theorem record_history (e : Event) (s : State) : (s.record e).history = s.history ++ [e] := rfl
@[simp] theorem record_reqValid (e : Event) (s : State) : (s.record e).reqValid = s.reqValid := rfl
@[simp] theorem record_req (e : Event) (s : State) : (s.record e).req = s.req := rfl
@[simp] theorem record_hostLoop (e : Event) (s : State) : (s.record e).hostLoop = s.hostLoop := rfl
@[simp] theorem record_hostReading (e : Event) (s : State) : (s.record e).hostReading = s.hostReading := rfl
@[simp] theorem record_hostOutcome (e : Event) (s : State) : (s.record e).hostOutcome = s.hostOutcome := rfl
@[simp] theorem record_params (e : Event) (s : State) : (s.record e).params = s.params := rfl
@[simp] theorem record_agenda (e : Event) (s : State) : (s.record e).agenda = s.agenda := rfl

@[simp] theorem goTo_st (x : Fsm) (s : State) : (s.goTo x).st = x := rfl
@[simp] theorem goTo_dir (x : Fsm) (s : State) : (s.goTo x).dir = s.dir := rfl
@[simp] theorem goTo_latch (x : Fsm) (s : State) : (s.goTo x).latch = s.latch := rfl
@[simp] theorem goTo_cnt (x : Fsm) (s : State) : (s.goTo x).cnt = s.cnt := rfl
@[simp] theorem goTo_raw (x : Fsm) (s : State) : (s.goTo x).raw = s.raw := rfl
@[simp] theorem goTo_rStatus (x : Fsm) (s : State) : (s.goTo x).rStatus = s.rStatus := rfl
@[simp] theorem goTo_rOk (x : Fsm) (s : State) : (s.goTo x).rOk = s.rOk := rfl
@[simp] theorem goTo_rData (x : Fsm) (s : State) : (s.goTo x).rData = s.rData := rfl
@[simp] theorem goTo_rCount (x : Fsm) (s : State) : (s.goTo x).rCount = s.rCount := rfl
@[simp] theorem goTo_rNew (x : Fsm) (s : State) : (s.goTo x).rNew = s.rNew := rfl
@[simp] theorem goTo_written (x : Fsm) (s : State) : (s.goTo x).written = s.written := rfl
@[simp] theorem goTo_txq (x : Fsm) (s : State) : (s.goTo x).txq = s.txq := rfl
@[simp] theorem goTo_rxb (x : Fsm) (s : State) : (s.goTo x).rxb = s.rxb := rfl
@[simp] theorem goTo_history (x : Fsm) (s : State) : (s.goTo x).history = s.history := rfl
@[simp] theorem goTo_reqValid (x : Fsm) (s : State) : (s.goTo x).reqValid = s.reqValid := rfl
@[simp] theorem goTo_req (x : Fsm) (s : State) : (s.goTo x).req = s.req := rfl
@[simp] theorem goTo_hostLoop (x : Fsm) (s : State) : (s.goTo x).hostLoop = s.hostLoop := rfl
@[simp] theorem goTo_hostReading (x : Fsm) (s : State) : (s.goTo x).hostReading = s.hostReading := rfl
@[simp] theorem goTo_hostOutcome (x : Fsm) (s : State) : (s.goTo x).hostOutcome = s.hostOutcome := rfl
@[simp] theorem goTo_params (x : Fsm) (s : State) : (s.goTo x).params = s.params := rfl
@[simp] theorem goTo_agenda (x : Fsm) (s : State) : (s.goTo x).agenda = s.agenda := rfl

@[simp] theorem setDir_st (d : Dir) (s : State) : (s.setDir d).st = s.st := rfl
@[simp] theorem setDir_dir (d : Dir) (s : State) : (s.setDir d).dir = d := rfl
@[simp] theorem setDir_latch (d : Dir) (s : State) : (s.setDir d).latch = s.latch := rfl
@[simp] theorem setDir_cnt (d : Dir) (s : State) : (s.setDir d).cnt = s.cnt := rfl
@[simp] theorem setDir_raw (d : Dir) (s : State) : (s.setDir d).raw = s.raw := rfl
@[simp] theorem setDir_rStatus (d : Dir) (s : State) : (s.setDir d).rStatus = s.rStatus := rfl
@[simp] theorem setDir_rOk (d : Dir) (s : State) : (s.setDir d).rOk = s.rOk := rfl
@[simp] theorem setDir_rData (d : Dir) (s : State) : (s.setDir d).rData = s.rData := rfl
@[simp] theorem setDir_rCount (d : Dir) (s : State) : (s.setDir d).rCount = s.rCount := rfl
@[simp] theorem setDir_rNew (d : Dir) (s : State) : (s.setDir d).rNew = s.rNew := rfl
@[simp] theorem setDir_written (d : Dir) (s : State) : (s.setDir d).written = s.written := rfl
@[simp] theorem setDir_txq (d : Dir) (s : State) : (s.setDir d).txq = s.txq := rfl
@[simp] theorem setDir_rxb (d : Dir) (s : State) : (s.setDir d).rxb = s.rxb := rfl
@[simp] theorem setDir_history (d : Dir) (s : State) : (s.setDir d).history = s.history ++ [.setDir d] := rfl
@[simp] theorem setDir_reqValid (d : Dir) (s : State) : (s.setDir d).reqValid = s.reqValid := rfl
@[simp] theorem setDir_req (d : Dir) (s : State) : (s.setDir d).req = s.req := rfl
@[simp] theorem setDir_hostLoop (d : Dir) (s : State) : (s.setDir d).hostLoop = s.hostLoop := rfl
@[simp] theorem setDir_hostReading (d : Dir) (s : State) : (s.setDir d).hostReading = s.hostReading := rfl
@[simp] theorem setDir_hostOutcome (d : Dir) (s : State) : (s.setDir d).hostOutcome = s.hostOutcome := rfl
@[simp] theorem setDir_params (d : Dir) (s : State) : (s.setDir d).params = s.params := rfl
@[simp] theorem setDir_agenda (d : Dir) (s : State) : (s.setDir d).agenda = s.agenda := rfl

@[simp] theorem txWrite_st (b : Byte) (s : State) : (s.txWrite b).st = s.st := rfl
@[simp] theorem txWrite_dir (b : Byte) (s : State) : (s.txWrite b).dir = s.dir := rfl
@[simp] theorem txWrite_latch (b : Byte) (s : State) : (s.txWrite b).latch = s.latch := rfl
@[simp] theorem txWrite_cnt (b : Byte) (s : State) : (s.txWrite b).cnt = s.cnt := rfl
@[simp] theorem txWrite_raw (b : Byte) (s : State) : (s.txWrite b).raw = s.raw := rfl
@[simp] theorem txWrite_rStatus (b : Byte) (s : State) : (s.txWrite b).rStatus = s.rStatus := rfl
@[simp] theorem txWrite_rOk (b : Byte) (s : State) : (s.txWrite b).rOk = s.rOk := rfl
@[simp] theorem txWrite_rData (b : Byte) (s : State) : (s.txWrite b).rData = s.rData := rfl
@[simp] theorem txWrite_rCount (b : Byte) (s : State) : (s.txWrite b).rCount = s.rCount := rfl
@[simp] theorem txWrite_rNew (b : Byte) (s : State) : (s.txWrite b).rNew = s.rNew := rfl
@[simp] theorem txWrite_written (b : Byte) (s : State) : (s.txWrite b).written = s.written := rfl
@[simp] theorem txWrite_txq (b : Byte) (s : State) : (s.txWrite b).txq = s.txq ++ [b] := rfl
@[simp] theorem txWrite_rxb (b : Byte) (s : State) : (s.txWrite b).rxb = s.rxb := rfl
@[simp] theorem txWrite_history (b : Byte) (s : State) : (s.txWrite b).history = s.history ++ [.txWrite b] := rfl
@[simp] theorem txWrite_reqValid (b : Byte) (s : State) : (s.txWrite b).reqValid = s.reqValid := rfl
@[simp] theorem txWrite_req (b : Byte) (s : State) : (s.txWrite b).req = s.req := rfl
@[simp] theorem txWrite_hostLoop (b : Byte) (s : State) : (s.txWrite b).hostLoop = s.hostLoop := rfl
@[simp] theorem txWrite_hostReading (b : Byte) (s : State) : (s.txWrite b).hostReading = s.hostReading := rfl
@[simp] theorem txWrite_hostOutcome (b : Byte) (s : State) : (s.txWrite b).hostOutcome = s.hostOutcome := rfl
@[simp] theorem txWrite_params (b : Byte) (s : State) : (s.txWrite b).params = s.params := rfl
@[simp] theorem txWrite_agenda (b : Byte) (s : State) : (s.txWrite b).agenda = s.agenda := rfl

@[simp] theorem rxDrop_st (n : Nat) (s : State) : (s.rxDrop n).st = s.st := rfl
@[simp] theorem rxDrop_dir (n : Nat) (s : State) : (s.rxDrop n).dir = s.dir := rfl
@[simp] theorem rxDrop_latch (n : Nat) (s : State) : (s.rxDrop n).latch = s.latch := rfl
@[simp] theorem rxDrop_cnt (n : Nat) (s : State) : (s.rxDrop n).cnt = s.cnt := rfl
@[simp] theorem rxDrop_raw (n : Nat) (s : State) : (s.rxDrop n).raw = s.raw := rfl
@[simp] theorem rxDrop_rStatus (n : Nat) (s : State) : (s.rxDrop n).rStatus = s.rStatus := rfl
@[simp] theorem rxDrop_rOk (n : Nat) (s : State) : (s.rxDrop n).rOk = s.rOk := rfl
@[simp] theorem rxDrop_rData (n : Nat) (s : State) : (s.rxDrop n).rData = s.rData := rfl
@[simp] theorem rxDrop_rCount (n : Nat) (s : State) : (s.rxDrop n).rCount = s.rCount := rfl
@[simp] theorem rxDrop_rNew (n : Nat) (s : State) : (s.rxDrop n).rNew = s.rNew := rfl
@[simp] theorem rxDrop_written (n : Nat) (s : State) : (s.rxDrop n).written = s.written := rfl
@[simp] theorem rxDrop_txq (n : Nat) (s : State) : (s.rxDrop n).txq = s.txq := rfl
@[simp] theorem rxDrop_rxb (n : Nat) (s : State) : (s.rxDrop n).rxb = s.rxb.drop n := rfl
@[simp] theorem rxDrop_history (n : Nat) (s : State) : (s.rxDrop n).history = s.history ++ [.rxDrop n] := rfl
@[simp] theorem rxDrop_reqValid (n : Nat) (s : State) : (s.rxDrop n).reqValid = s.reqValid := rfl
@[simp] theorem rxDrop_req (n : Nat) (s : State) : (s.rxDrop n).req = s.req := rfl
@[simp] theorem rxDrop_hostLoop (n : Nat) (s : State) : (s.rxDrop n).hostLoop = s.hostLoop := rfl
@[simp] theorem rxDrop_hostReading (n : Nat) (s : State) : (s.rxDrop n).hostReading = s.hostReading := rfl
@[simp] theorem rxDrop_hostOutcome (n : Nat) (s : State) : (s.rxDrop n).hostOutcome = s.hostOutcome := rfl
@[simp] theorem rxDrop_params (n : Nat) (s : State) : (s.rxDrop n).params = s.params := rfl
@[simp] theorem rxDrop_agenda (n : Nat) (s : State) : (s.rxDrop n).agenda = s.agenda := rfl

@[simp] theorem wait_st (k : WaitKind) (s : State) : (s.wait k).st = s.st := rfl
@[simp] theorem wait_dir (k : WaitKind) (s : State) : (s.wait k).dir = s.dir := rfl
@[simp] theorem wait_latch (k : WaitKind) (s : State) : (s.wait k).latch = s.latch := rfl
@[simp] theorem wait_cnt (k : WaitKind) (s : State) : (s.wait k).cnt = s.cnt := rfl
@[simp] theorem wait_raw (k : WaitKind) (s : State) : (s.wait k).raw = s.raw := rfl
@[simp] theorem wait_rStatus (k : WaitKind) (s : State) : (s.wait k).rStatus = s.rStatus := rfl
@[simp] theorem wait_rOk (k : WaitKind) (s : State) : (s.wait k).rOk = s.rOk := rfl
@[simp] theorem wait_rData (k : WaitKind) (s : State) : (s.wait k).rData = s.rData := rfl
@[simp] theorem wait_rCount (k : WaitKind) (s : State) : (s.wait k).rCount = s.rCount := rfl
@[simp] theorem wait_rNew (k : WaitKind) (s : State) : (s.wait k).rNew = s.rNew := rfl
@[simp] theorem wait_written (k : WaitKind) (s : State) : (s.wait k).written = s.written := rfl
@[simp] theorem wait_txq (k : WaitKind) (s : State) : (s.wait k).txq = s.txq := rfl
@[simp] theorem wait_rxb (k : WaitKind) (s : State) : (s.wait k).rxb = s.rxb := rfl
@[simp] theorem wait_history (k : WaitKind) (s : State) : (s.wait k).history = s.history ++ [.wait k] := rfl
@[simp] theorem wait_reqValid (k : WaitKind) (s : State) : (s.wait k).reqValid = s.reqValid := rfl
@[simp] theorem wait_req (k : WaitKind) (s : State) : (s.wait k).req = s.req := rfl
@[simp] theorem wait_hostLoop (k : WaitKind) (s : State) : (s.wait k).hostLoop = s.hostLoop := rfl
@[simp] theorem wait_hostReading (k : WaitKind) (s : State) : (s.wait k).hostReading = s.hostReading := rfl
@[simp] theorem wait_hostOutcome (k : WaitKind) (s : State) : (s.wait k).hostOutcome = s.hostOutcome := rfl
@[simp] theorem wait_params (k : WaitKind) (s : State) : (s.wait k).params = s.params := rfl
@[simp] theorem wait_agenda (k : WaitKind) (s : State) : (s.wait k).agenda = s.agenda := rfl

@[simp] theorem publish_st (x : Status) (d : Word) (c : Byte) (s : State) : (s.publish x d c).st = s.st := rfl
@[simp] theorem publish_dir (x : Status) (d : Word) (c : Byte) (s : State) : (s.publish x d c).dir = s.dir := rfl
@[simp] theorem publish_latch (x : Status) (d : Word) (c : Byte) (s : State) : (s.publish x d c).latch = s.latch := rfl
@[simp] theorem publish_cnt (x : Status) (d : Word) (c : Byte) (s : State) : (s.publish x d c).cnt = s.cnt := rfl
@[simp] theorem publish_raw (x : Status) (d : Word) (c : Byte) (s : State) : (s.publish x d c).raw = s.raw := rfl
@[simp] theorem publish_rStatus (x : Status) (d : Word) (c : Byte) (s : State) : (s.publish x d c).rStatus = x := rfl
@[simp] theorem publish_rOk (x : Status) (d : Word) (c : Byte) (s : State) : (s.publish x d c).rOk = decide (x = Status.ok) := rfl
@[simp] theorem publish_rData (x : Status) (d : Word) (c : Byte) (s : State) : (s.publish x d c).rData = d := rfl
@[simp] theorem publish_rCount (x : Status) (d : Word) (c : Byte) (s : State) : (s.publish x d c).rCount = c := rfl
@[simp] theorem publish_rNew (x : Status) (d : Word) (c : Byte) (s : State) : (s.publish x d c).rNew = true := rfl
@[simp] theorem publish_written (x : Status) (d : Word) (c : Byte) (s : State) : (s.publish x d c).written = true := rfl
@[simp] theorem publish_txq (x : Status) (d : Word) (c : Byte) (s : State) : (s.publish x d c).txq = s.txq := rfl
@[simp] theorem publish_rxb (x : Status) (d : Word) (c : Byte) (s : State) : (s.publish x d c).rxb = s.rxb := rfl
@[simp] theorem publish_history (x : Status) (d : Word) (c : Byte) (s : State) : (s.publish x d c).history = s.history ++ [.publish x d c] := rfl
@[simp] theorem publish_reqValid (x : Status) (d : Word) (c : Byte) (s : State) : (s.publish x d c).reqValid = s.reqValid := rfl
@[simp] theorem publish_req (x : Status) (d : Word) (c : Byte) (s : State) : (s.publish x d c).req = s.req := rfl
@[simp] theorem publish_hostLoop (x : Status) (d : Word) (c : Byte) (s : State) : (s.publish x d c).hostLoop = s.hostLoop := rfl
@[simp] theorem publish_hostReading (x : Status) (d : Word) (c : Byte) (s : State) : (s.publish x d c).hostReading = s.hostReading := rfl
@[simp] theorem publish_hostOutcome (x : Status) (d : Word) (c : Byte) (s : State) : (s.publish x d c).hostOutcome = s.hostOutcome := rfl
@[simp] theorem publish_params (x : Status) (d : Word) (c : Byte) (s : State) : (s.publish x d c).params = s.params := rfl
@[simp] theorem publish_agenda (x : Status) (d : Word) (c : Byte) (s : State) : (s.publish x d c).agenda = s.agenda := rfl

@[simp] theorem sampleCount_st (s : State) : (s.sampleCount).st = s.st := rfl
@[simp] theorem sampleCount_dir (s : State) : (s.sampleCount).dir = s.dir := rfl
@[simp] theorem sampleCount_latch (s : State) : (s.sampleCount).latch = s.latch := rfl
@[simp] theorem sampleCount_cnt (s : State) : (s.sampleCount).cnt = sat8 s.rxCount := rfl
@[simp] theorem sampleCount_raw (s : State) : (s.sampleCount).raw = s.raw := rfl
@[simp] theorem sampleCount_rStatus (s : State) : (s.sampleCount).rStatus = s.rStatus := rfl
@[simp] theorem sampleCount_rOk (s : State) : (s.sampleCount).rOk = s.rOk := rfl
@[simp] theorem sampleCount_rData (s : State) : (s.sampleCount).rData = s.rData := rfl
@[simp] theorem sampleCount_rCount (s : State) : (s.sampleCount).rCount = s.rCount := rfl
@[simp] theorem sampleCount_rNew (s : State) : (s.sampleCount).rNew = s.rNew := rfl
@[simp] theorem sampleCount_written (s : State) : (s.sampleCount).written = s.written := rfl
@[simp] theorem sampleCount_txq (s : State) : (s.sampleCount).txq = s.txq := rfl
@[simp] theorem sampleCount_rxb (s : State) : (s.sampleCount).rxb = s.rxb := rfl
@[simp] theorem sampleCount_history (s : State) : (s.sampleCount).history = s.history := rfl
@[simp] theorem sampleCount_reqValid (s : State) : (s.sampleCount).reqValid = s.reqValid := rfl
@[simp] theorem sampleCount_req (s : State) : (s.sampleCount).req = s.req := rfl
@[simp] theorem sampleCount_hostLoop (s : State) : (s.sampleCount).hostLoop = s.hostLoop := rfl
@[simp] theorem sampleCount_hostReading (s : State) : (s.sampleCount).hostReading = s.hostReading := rfl
@[simp] theorem sampleCount_hostOutcome (s : State) : (s.sampleCount).hostOutcome = s.hostOutcome := rfl
@[simp] theorem sampleCount_params (s : State) : (s.sampleCount).params = s.params := rfl
@[simp] theorem sampleCount_agenda (s : State) : (s.sampleCount).agenda = s.agenda := rfl

@[simp] theorem popTurn_st (s : State) : (s.popTurn).st = s.st := rfl
@[simp] theorem popTurn_dir (s : State) : (s.popTurn).dir = s.dir := rfl
@[simp] theorem popTurn_latch (s : State) : (s.popTurn).latch = s.latch := rfl
@[simp] theorem popTurn_cnt (s : State) : (s.popTurn).cnt = s.cnt := rfl
@[simp] theorem popTurn_raw (s : State) : (s.popTurn).raw = s.raw := rfl
@[simp] theorem popTurn_rStatus (s : State) : (s.popTurn).rStatus = s.rStatus := rfl
@[simp] theorem popTurn_rOk (s : State) : (s.popTurn).rOk = s.rOk := rfl
@[simp] theorem popTurn_rData (s : State) : (s.popTurn).rData = s.rData := rfl
@[simp] theorem popTurn_rCount (s : State) : (s.popTurn).rCount = s.rCount := rfl
@[simp] theorem popTurn_rNew (s : State) : (s.popTurn).rNew = s.rNew := rfl
@[simp] theorem popTurn_written (s : State) : (s.popTurn).written = s.written := rfl
@[simp] theorem popTurn_txq (s : State) : (s.popTurn).txq = s.txq := rfl
@[simp] theorem popTurn_rxb (s : State) : (s.popTurn).rxb = s.rxb := rfl
@[simp] theorem popTurn_history (s : State) : (s.popTurn).history = s.history := rfl
@[simp] theorem popTurn_reqValid (s : State) : (s.popTurn).reqValid = s.reqValid := rfl
@[simp] theorem popTurn_req (s : State) : (s.popTurn).req = s.req := rfl
@[simp] theorem popTurn_hostLoop (s : State) : (s.popTurn).hostLoop = s.hostLoop := rfl
@[simp] theorem popTurn_hostReading (s : State) : (s.popTurn).hostReading = s.hostReading := rfl
@[simp] theorem popTurn_hostOutcome (s : State) : (s.popTurn).hostOutcome = s.hostOutcome := rfl
@[simp] theorem popTurn_params (s : State) : (s.popTurn).params = s.params := rfl
@[simp] theorem popTurn_agenda (s : State) : (s.popTurn).agenda = s.agenda.tail := rfl

@[simp] theorem resetBlock_st (s : State) : s.resetBlock.st = .idle := rfl
@[simp] theorem resetBlock_dir (s : State) : s.resetBlock.dir = .receive := rfl
@[simp] theorem resetBlock_latch (s : State) : s.resetBlock.latch = ⟨0, 0, 0, false⟩ := rfl
@[simp] theorem resetBlock_cnt (s : State) : s.resetBlock.cnt = 0 := rfl
@[simp] theorem resetBlock_raw (s : State) : s.resetBlock.raw = 0 := rfl
@[simp] theorem resetBlock_rStatus (s : State) : s.resetBlock.rStatus = .ok := rfl
@[simp] theorem resetBlock_rOk (s : State) : s.resetBlock.rOk = false := rfl
@[simp] theorem resetBlock_rData (s : State) : s.resetBlock.rData = 0xFFFF := rfl
@[simp] theorem resetBlock_rCount (s : State) : s.resetBlock.rCount = 0 := rfl
@[simp] theorem resetBlock_rNew (s : State) : s.resetBlock.rNew = false := rfl
@[simp] theorem resetBlock_written (s : State) : s.resetBlock.written = s.written := rfl
@[simp] theorem resetBlock_txq (s : State) : s.resetBlock.txq = s.txq := rfl
@[simp] theorem resetBlock_rxb (s : State) : s.resetBlock.rxb = s.rxb := rfl
@[simp] theorem resetBlock_history (s : State) : s.resetBlock.history = s.history ++ [.reset] := rfl
@[simp] theorem resetBlock_reqValid (s : State) : s.resetBlock.reqValid = s.reqValid := rfl
@[simp] theorem resetBlock_req (s : State) : s.resetBlock.req = s.req := rfl
@[simp] theorem resetBlock_hostLoop (s : State) : s.resetBlock.hostLoop = s.hostLoop := rfl
@[simp] theorem resetBlock_hostReading (s : State) : s.resetBlock.hostReading = s.hostReading := rfl
@[simp] theorem resetBlock_hostOutcome (s : State) : s.resetBlock.hostOutcome = s.hostOutcome := rfl
@[simp] theorem resetBlock_params (s : State) : s.resetBlock.params = s.params := rfl
@[simp] theorem resetBlock_agenda (s : State) : s.resetBlock.agenda = s.agenda := rfl

end Sys2Proof.Machine.State
end

