-- ==== Sys2Proof/Laws/Framer.lean ====
section
/-! SUPPORT. Everything the framer's step can do, said once: `FramerMove s t` lists the moves of R164 to R177, and
`framerStep_next` says that a step of the framer is one of them. Also what the shared parts of the commands do. -/

namespace Sys2Proof.Machine

/-- The moves of the framer outside IDLE, each with the state it is taken from and its guard. -/
inductive FramerMove (s : State) : State → Prop
  | idle (h : s.st = .idle) : FramerMove s s
  | preFlush (h : s.st = .preFlush) : FramerMove s { s with
      st := .txEnable, rxb := [], history := s.history ++ [.rxDrop s.rxb.length] }
  | txEnable (h : s.st = .txEnable) : FramerMove s { s with
      st := .txSettle, dir := .transmit, history := s.history ++ [.setDir .transmit] }
  | txSettle (h : s.st = .txSettle) : FramerMove s { s with
      st := .txByte0, history := s.history ++ [.wait .drvSettle] }
  | txByte0Read (h : s.st = .txByte0) (hc : s.latch.cmd ≠ 0b10#2) (room : s.txq.length < s.params.txqCap) :
      FramerMove s { s with
        st := .txDrain, txq := s.txq ++ [hostByte s.latch], history := s.history ++ [.txWrite (hostByte s.latch)] }
  | txByte0Extended (h : s.st = .txByte0) (hc : s.latch.cmd = 0b10#2) (room : s.txq.length < s.params.txqCap) :
      FramerMove s { s with
        st := .txByte1, txq := s.txq ++ [hostByte s.latch], history := s.history ++ [.txWrite (hostByte s.latch)] }
  | txByte1 (h : s.st = .txByte1) (room : s.txq.length < s.params.txqCap) : FramerMove s { s with
      st := .txDrain, txq := s.txq ++ [s.latch.sub], history := s.history ++ [.txWrite s.latch.sub] }
  | held (h : s.st = .txByte0 ∨ s.st = .txByte1) (full : s.params.txqCap ≤ s.txq.length) : FramerMove s s
  | drained (h : s.st = .txDrain) (empty : s.txq = []) : FramerMove s { s with st := .rxEnable }
  | draining (h : s.st = .txDrain) (busy : s.txq ≠ []) : FramerMove s s
  | rxEnable (h : s.st = .rxEnable) : FramerMove s { s with
      st := .rxWait, dir := .receive, history := s.history ++ [.setDir .receive] }
  | rxWait (h : s.st = .rxWait) : FramerMove s { s with st := .rxCheck, history := s.history ++ [.wait .rspWait] }
  | badCount (n : Nat) (h : s.st = .rxCheck) (hn : expectedCount s.params s.latch = some n) (ne : s.rxb.length ≠ n) :
      FramerMove s { s with
        st := .postFlush, cnt := sat8 s.rxb.length, rStatus := .byteCountMismatch, rOk := false, rData := failureData
        rCount := sat8 s.rxb.length, rNew := true, written := true
        history := s.history ++ [.publish .byteCountMismatch failureData (sat8 s.rxb.length)] }
  | extendedDone (h : s.st = .rxCheck) (hc : s.latch.cmd = 0b10#2) (hn : s.rxb.length = s.params.extRspBytes) :
      FramerMove s { s with
        st := .postFlush, cnt := sat8 s.rxb.length, rStatus := .ok, rOk := true, rData := extendedData
        rCount := sat8 s.rxb.length, rNew := true, written := true
        history := s.history ++ [.publish .ok extendedData (sat8 s.rxb.length)] }
  | toRead (h : s.st = .rxCheck) (hc : s.latch.cmd = 0b00#2 ∨ s.latch.cmd = 0b01#2) (hn : s.rxb.length = 2) :
      FramerMove s { s with st := .rxLo, cnt := 2#8 }
  | rxLo (b : Byte) (rest : List Byte) (h : s.st = .rxLo) (hb : s.rxb = b :: rest) : FramerMove s { s with
      st := .rxHi, rxb := rest, raw := withLowByte s.raw b, history := s.history ++ [.rxRead b] }
  | rxHi (b : Byte) (rest : List Byte) (h : s.st = .rxHi) (hb : s.rxb = b :: rest) : FramerMove s { s with
      st := .verify, rxb := rest, raw := withHighByte s.raw b, history := s.history ++ [.rxRead b] }
  | verified (h : s.st = .verify) (hv : Machine.verify s.raw = true) : FramerMove s { s with
      st := .postFlush, rStatus := .ok, rOk := true, rData := latchedDecode s.latch s.raw, rCount := s.cnt, rNew := true
      written := true, history := s.history ++ [.publish .ok (latchedDecode s.latch s.raw) s.cnt] }
  | corrupt (h : s.st = .verify) (hv : Machine.verify s.raw = false) : FramerMove s { s with
      st := .postFlush, rStatus := .checksumMismatch, rOk := false, rData := failureData, rCount := s.cnt, rNew := true
      written := true, history := s.history ++ [.publish .checksumMismatch failureData s.cnt] }
  | postFlush (h : s.st = .postFlush) : FramerMove s { s with
      st := .quiet, rxb := [], history := s.history ++ [.rxDrop s.rxb.length] }
  | quiet (h : s.st = .quiet) : FramerMove s { s with
      st := .idle
      history := s.history ++ [.wait (if s.latch.cmd = 0b10#2 then .extHoldoff else .quiet)] }

theorem flush_eq (x : Fsm) (s : State) :
    flush x s = { s with st := x, rxb := [], history := s.history ++ [.rxDrop s.rxb.length] } := by
  simp [flush, State.goTo, State.rxDrop, State.record, State.rxCount]

theorem sendByte_room {s : State} (b : Byte) (x : Fsm) (h : s.txq.length < s.params.txqCap) :
    sendByte b x s = { s with st := x, txq := s.txq ++ [b], history := s.history ++ [.txWrite b] } := by
  simp [sendByte, State.txbe, h, State.goTo, State.txWrite, State.record]

theorem sendByte_full {s : State} (b : Byte) (x : Fsm) (h : s.params.txqCap ≤ s.txq.length) :
    sendByte b x s = s := by
  simp [sendByte, State.txbe, Nat.not_lt.2 h]

theorem drain_empty {s : State} (h : s.txq = []) : drain s = { s with st := .rxEnable } := by
  simp [drain, State.txc, h, State.goTo]

theorem drain_busy {s : State} (h : s.txq ≠ []) : drain s = s := by
  simp [drain, State.txc, h]

theorem countFailed_eq (s : State) :
    countFailed s = { s with
      st := .postFlush, cnt := sat8 s.rxb.length, rStatus := .byteCountMismatch, rOk := false, rData := failureData
      rCount := sat8 s.rxb.length, rNew := true, written := true
      history := s.history ++ [.publish .byteCountMismatch failureData (sat8 s.rxb.length)] } := by
  simp [countFailed, State.sampleCount, State.publish, State.goTo, State.record, State.rxCount]

theorem checkRead_bad {s : State} {n : Nat} (h : s.rxb.length ≠ n) : checkRead n s = countFailed s := by
  simp [checkRead, State.rxCount, h]

theorem checkRead_two {s : State} (h : s.rxb.length = 2) : checkRead 2 s = { s with st := .rxLo, cnt := 2#8 } := by
  simp [checkRead, State.rxCount, h, State.sampleCount, State.goTo, sat8]

theorem checkExtended_bad {s : State} {n : Nat} (h : s.rxb.length ≠ n) : checkExtended n s = countFailed s := by
  simp [checkExtended, State.rxCount, h]

theorem checkExtended_done {s : State} {n : Nat} (h : s.rxb.length = n) :
    checkExtended n s = { s with
      st := .postFlush, cnt := sat8 s.rxb.length, rStatus := .ok, rOk := true, rData := extendedData
      rCount := sat8 s.rxb.length, rNew := true, written := true
      history := s.history ++ [.publish .ok extendedData (sat8 s.rxb.length)] } := by
  simp [checkExtended, State.rxCount, h, State.sampleCount, State.publish, State.goTo, State.record]

theorem readLow_cons {s : State} {b : Byte} {rest : List Byte} (h : s.rxb = b :: rest) :
    readLow s = .next { s with
      st := .rxHi, rxb := rest, raw := withLowByte s.raw b, history := s.history ++ [.rxRead b] } := by
  simp [readLow, State.rxRead, h, State.goTo, State.record]

theorem readHigh_cons {s : State} {b : Byte} {rest : List Byte} (h : s.rxb = b :: rest) :
    readHigh s = .next { s with
      st := .verify, rxb := rest, raw := withHighByte s.raw b, history := s.history ++ [.rxRead b] } := by
  simp [readHigh, State.rxRead, h, State.goTo, State.record]

theorem verifyWith_pass {s : State} (decode : Word → Word) (h : verify s.raw = true) :
    verifyWith decode s = { s with
      st := .postFlush, rStatus := .ok, rOk := true, rData := decode s.raw, rCount := s.cnt, rNew := true
      written := true, history := s.history ++ [.publish .ok (decode s.raw) s.cnt] } := by
  simp [verifyWith, h, State.publish, State.goTo, State.record]

theorem verifyWith_fail {s : State} (decode : Word → Word) (h : verify s.raw = false) :
    verifyWith decode s = { s with
      st := .postFlush, rStatus := .checksumMismatch, rOk := false, rData := failureData, rCount := s.cnt, rNew := true
      written := true, history := s.history ++ [.publish .checksumMismatch failureData s.cnt] } := by
  simp [verifyWith, h, State.publish, State.goTo, State.record]

/-- A request is latched if legal. -/
theorem takeRequest_legal {r : Request} {s : State} (h : legal r = true) :
    takeRequest r s = { s with
      st := .preFlush, latch := r, rNew := false, reqValid := false, history := s.history ++ [.accept r] } := by
  simp [takeRequest, h, State.goTo, State.record]

/-- A request is rejected if not. -/
theorem takeRequest_illegal {r : Request} {s : State} (h : legal r = false) :
    takeRequest r s = { s with
      st := .idle, reqValid := false, rStatus := .illegalRequest, rOk := false, rData := failureData, rCount := 0
      rNew := true, written := true
      history := s.history ++ [.reject r, .publish .illegalRequest failureData 0] } := by
  simp [takeRequest, h, State.goTo, State.record, State.publish]

/-- A command step, in the three situations of R163 and R189. -/
theorem runCommand_next {i : Instr} {body : State → Result} {s t : State} (h : runCommand i body s = .next t) :
    (s.st = .idle ∧ t = takeRequest (encodeRequest i s.req) s) ∨
    (s.st ≠ .idle ∧ s.inFlight = some i ∧ body s = .next t) ∨
    (s.st ≠ .idle ∧ s.inFlight ≠ some i ∧ t = s) := by
  unfold runCommand at h
  split at h
  · exact .inl ⟨‹_›, by simpa using h.symm⟩
  · split at h
    · exact .inr (.inl ⟨‹_›, ‹_›, h⟩)
    · exact .inr (.inr ⟨‹_›, ‹_›, by simpa using h.symm⟩)

/-- The step of a read command is the framer's, where the latch holds that command's request. -/
theorem readBody_eq_framerStep {s : State} {host : Byte} {decode : Word → Word}
    (hcmd : s.latch.cmd = 0b00#2 ∨ s.latch.cmd = 0b01#2) (hhost : hostByte s.latch = host)
    (hdec : latchedDecode s.latch = decode) : readBody host decode s = framerStep s := by
  have h2 : s.latch.cmd ≠ 0b10#2 := by rcases hcmd with h | h <;> simp [h]
  unfold readBody framerStep
  cases s.st <;> simp [hhost, hdec, h2, rxCheck, expectedCount, hcmd]

/-- The step of an extended command is the framer's, where the latch holds that command's request. -/
theorem extendedBody_eq_framerStep {s : State} {host sub : Byte} (hcmd : s.latch.cmd = 0b10#2)
    (hhost : hostByte s.latch = host) (hsub : s.latch.sub = sub) : extendedBody host sub s = framerStep s := by
  unfold extendedBody
  cases hs : s.st <;> simp [framerStep, hs, hhost, hsub, subByte, hcmd, rxCheck, expectedCount]

/-- The framer's RX_CHECK (R172), by what it finds. -/
theorem rxCheck_next {s t : State} (hs : s.st = .rxCheck) (h : rxCheck s = .next t) : FramerMove s t := by
  unfold rxCheck at h
  split at h
  · simp at h
  · rename_i n hn
    have hn' := hn
    unfold expectedCount at hn'
    split at hn'
    · rename_i hc
      have h2 : s.latch.cmd ≠ 0b10#2 := by rcases hc with h | h <;> simp [h]
      obtain rfl : 2 = n := by simpa [Config.readRspBytes] using hn'
      by_cases hl : s.rxb.length = 2
      · simp only [h2, if_false, checkRead_two hl] at h
        cases h; exact .toRead hs hc hl
      · simp only [h2, if_false, checkRead_bad hl, countFailed_eq] at h
        cases h; exact .badCount 2 hs hn hl
    · split at hn'
      · rename_i hc
        obtain rfl : s.params.extRspBytes = n := by simpa using hn'
        by_cases hl : s.rxb.length = s.params.extRspBytes
        · simp only [hc, if_true, checkExtended_done hl] at h
          cases h; exact .extendedDone hs hc hl
        · simp only [hc, if_true, checkExtended_bad hl, countFailed_eq] at h
          cases h; exact .badCount _ hs hn hl
      · simp at hn'

/-- What a step of the framer can do. -/
theorem framerStep_next {s t : State} (h : framerStep s = .next t) : FramerMove s t := by
  cases hs : s.st <;> simp only [framerStep, hs] at h
  case idle => cases h; exact .idle hs
  case preFlush => rw [flush_eq] at h; cases h; exact .preFlush hs
  case txEnable => cases h; exact .txEnable hs
  case txSettle => cases h; exact .txSettle hs
  case txByte0 =>
    by_cases hr : s.txq.length < s.params.txqCap
    · rw [sendByte_room _ _ hr] at h
      by_cases hc : s.latch.cmd = 0b10#2
      · simp only [hc, if_true] at h; cases h; exact .txByte0Extended hs hc hr
      · simp only [hc, if_false] at h; cases h; exact .txByte0Read hs hc hr
    · rw [sendByte_full _ _ (Nat.not_lt.1 hr)] at h; cases h; exact .held (.inl hs) (Nat.not_lt.1 hr)
  case txByte1 =>
    by_cases hr : s.txq.length < s.params.txqCap
    · rw [sendByte_room _ _ hr] at h; cases h; exact .txByte1 hs hr
    · rw [sendByte_full _ _ (Nat.not_lt.1 hr)] at h; cases h; exact .held (.inr hs) (Nat.not_lt.1 hr)
  case txDrain =>
    by_cases he : s.txq = []
    · rw [drain_empty he] at h; cases h; exact .drained hs he
    · rw [drain_busy he] at h; cases h; exact .draining hs he
  case rxEnable => cases h; exact .rxEnable hs
  case rxWait => cases h; exact .rxWait hs
  case rxCheck => exact rxCheck_next hs h
  case rxLo =>
    cases hb : s.rxb with
    | nil => simp [readLow, State.rxRead, hb] at h
    | cons b rest => rw [readLow_cons hb] at h; cases h; exact .rxLo b rest hs hb
  case rxHi =>
    cases hb : s.rxb with
    | nil => simp [readHigh, State.rxRead, hb] at h
    | cons b rest => rw [readHigh_cons hb] at h; cases h; exact .rxHi b rest hs hb
  case verify =>
    cases hv : Machine.verify s.raw
    · rw [verifyWith_fail _ hv] at h; cases h; exact .corrupt hs hv
    · rw [verifyWith_pass _ hv] at h; cases h; exact .verified hs hv
  case postFlush => rw [flush_eq] at h; cases h; exact .postFlush hs
  case quiet => cases h; exact .quiet hs

/-- A move of the framer is the step the framer takes: its guard decides it. -/
theorem FramerMove.framerStep_eq {s t : State} (m : FramerMove s t) : framerStep s = .next t := by
  cases m with
  | idle h => simp [framerStep, h]
  | preFlush h => simp [framerStep, h, flush_eq]
  | txEnable h => simp [framerStep, h, enterTransmit, State.setDir, State.goTo, State.record]
  | txSettle h => simp [framerStep, h, waitThen, State.wait, State.goTo, State.record]
  | txByte0Read h hc room => simp [framerStep, h, hc, sendByte_room _ _ room]
  | txByte0Extended h hc room => simp [framerStep, h, hc, sendByte_room _ _ room]
  | txByte1 h room => simp [framerStep, h, subByte, sendByte_room _ _ room]
  | held h full => rcases h with h | h <;> simp [framerStep, h, sendByte_full _ _ full]
  | drained h empty => simp [framerStep, h, drain_empty empty]
  | draining h busy => simp [framerStep, h, drain_busy busy]
  | rxEnable h => simp [framerStep, h, enterReceive, State.setDir, State.goTo, State.record]
  | rxWait h => simp [framerStep, h, waitThen, State.wait, State.goTo, State.record]
  | badCount n h hn ne =>
    by_cases hc : s.latch.cmd = 0b10#2
    · simp [framerStep, h, rxCheck, hn, hc, checkExtended_bad ne, countFailed_eq]
    · simp [framerStep, h, rxCheck, hn, hc, checkRead_bad ne, countFailed_eq]
  | extendedDone h hc hn => simp [framerStep, h, rxCheck, expectedCount, hc, checkExtended_done hn]
  | toRead h hc hn =>
    have h2 : s.latch.cmd ≠ 0b10#2 := by rcases hc with h | h <;> simp [h]
    simp [framerStep, h, rxCheck, expectedCount, hc, h2, Config.readRspBytes, checkRead_two hn]
  | rxLo b rest h hb => simp [framerStep, h, readLow_cons hb]
  | rxHi b rest h hb => simp [framerStep, h, readHigh_cons hb]
  | verified h hv => simp [framerStep, h, verifyWith_pass _ hv]
  | corrupt h hv => simp [framerStep, h, verifyWith_fail _ hv]
  | postFlush h => simp [framerStep, h, flush_eq]
  | quiet h => simp [framerStep, h, waitThen, State.wait, State.goTo, State.record]

end Sys2Proof.Machine
end

