-- ==== Sys2Proof/Laws/Decode.lean ====
section
/-! SUPPORT. The request check, the request decoder and the latch of a command in flight. -/

namespace Sys2Proof

theorem Resolution.ofBit_toBit (r : Resolution) : Resolution.ofBit r.toBit = r := by cases r <;> rfl

theorem Resolution.toBit_ofBit (b : Bool) : (Resolution.ofBit b).toBit = b := by cases b <;> rfl

/-- Two bits are one of four values. -/
theorem twoBits_cases (m : BitVec 2) : m = 0b00#2 ∨ m = 0b01#2 ∨ m = 0b10#2 ∨ m = 0b11#2 := by
  revert m; decide

/-- The base addresses are the aligned bytes (R51, R82). -/
theorem mem_baseAddresses (a : Byte) : a ∈ Config.baseAddresses ↔ alignedBase a = true := by
  revert a; decide

/-- `USABLE_ADDR` is a subset of the 64 base addresses (R7). -/
theorem Params.usableAddr_subset (p : Params) {a : Byte} (h : a ∈ p.usableAddr) : a ∈ Config.baseAddresses := by
  obtain ⟨slot, -, rfl⟩ := List.mem_map.1 h
  refine List.mem_map_of_mem (List.mem_map.2 ⟨slot.toNat, List.mem_range.2 slot.isLt, ?_⟩)
  simp

namespace Machine

/-- What `legal` says (R161). -/
theorem legal_iff (r : Request) : legal r = true ↔
    r.addr.extractLsb' 0 2 = 0#2 ∧ r.cmd ≠ 0b11#2 ∧ (r.cmd = 0b10#2 → r.sub = 0x5E#8 ∨ r.sub = 0x75#8) := by
  simp only [legal, Bool.and_eq_true, Bool.or_eq_true, beq_iff_eq, bne_iff_ne, and_assoc, or_assoc, ne_eq]
  tauto

/-- The latch of a command in flight: it holds a legal request, whose command it is. -/
theorem inFlight_iff {i : Instr} {s : State} :
    s.inFlight = some i ↔ s.st ≠ .idle ∧ legal s.latch = true ∧ decodeRequest s.latch = .ok i := by
  unfold State.inFlight
  by_cases h : s.st = .idle ∨ legal s.latch = false
  · simp only [h, if_true]
    constructor
    · simp
    · rintro ⟨h1, h2, _⟩
      rcases h with h | h
      · exact absurd h h1
      · simp [h] at h2
  · simp only [h, if_false]
    push Not at h
    have h2 : legal s.latch = true := by simpa using h.2
    cases hd : decodeRequest s.latch <;> simp [h.1, h2]

/-- The command of a legal request, by its modifier and sub-command. -/
theorem decodeRequest_legal {r : Request} (h : legal r = true) :
    (r.cmd = 0b00#2 ∧ decodeRequest r = .ok (.getpos r.addr (.ofBit r.res12))) ∨
    (r.cmd = 0b01#2 ∧ decodeRequest r = .ok (.getturns r.addr)) ∨
    (r.cmd = 0b10#2 ∧ r.sub = 0x5E#8 ∧ decodeRequest r = .ok (.setzero r.addr)) ∨
    (r.cmd = 0b10#2 ∧ r.sub = 0x75#8 ∧ decodeRequest r = .ok (.resetdev r.addr)) := by
  obtain ⟨ha, hc, hs⟩ := (legal_iff r).1 h
  rcases twoBits_cases r.cmd with h0 | h1 | h2 | h3
  · exact .inl ⟨h0, by simp [decodeRequest, ha, h0]⟩
  · exact .inr (.inl ⟨h1, by simp [decodeRequest, ha, h1]⟩)
  · rcases hs h2 with h5 | h7
    · exact .inr (.inr (.inl ⟨h2, h5, by simp [decodeRequest, ha, h2, extendedCommand, h5]⟩))
    · exact .inr (.inr (.inr ⟨h2, h7, by simp [decodeRequest, ha, h2, extendedCommand, h7]⟩))
  · exact absurd h3 hc

/-- The commands that can be in flight, with what the latch then holds. -/
theorem inFlight_cases {i : Instr} {s : State} (h : s.inFlight = some i) :
    (i = .getpos s.latch.addr (.ofBit s.latch.res12) ∧ s.latch.cmd = 0b00#2) ∨
    (i = .getturns s.latch.addr ∧ s.latch.cmd = 0b01#2) ∨
    (i = .setzero s.latch.addr ∧ s.latch.cmd = 0b10#2 ∧ s.latch.sub = 0x5E#8) ∨
    (i = .resetdev s.latch.addr ∧ s.latch.cmd = 0b10#2 ∧ s.latch.sub = 0x75#8) := by
  obtain ⟨_, hl, hd⟩ := inFlight_iff.1 h
  rcases decodeRequest_legal hl with ⟨hc, h'⟩ | ⟨hc, h'⟩ | ⟨hc, hs, h'⟩ | ⟨hc, hs, h'⟩ <;>
    rw [h'] at hd <;> cases hd <;> simp [*]

end Machine
end Sys2Proof
end

