-- ==== Sys2Proof/Laws/Environment.lean ====
section
/-! SUPPORT. What each agent's turn does, said once. -/

namespace Sys2Proof.Machine

theorem uartStep_nil {s : State} (h : s.txq = []) : uartStep s = s := by
  simp [uartStep, h]

theorem uartStep_cons {s : State} {b : Byte} {q : List Byte} (h : s.txq = b :: q) :
    uartStep s = { s with txq := q, history := s.history ++ [.wire b (decide (s.dir = Dir.transmit))] } := by
  simp [uartStep, h, State.record]

theorem lineStep_room {s : State} (b : Byte) (h : s.rxb.length < s.params.rxCap) :
    lineStep b s = { s with rxb := s.rxb ++ [b], history := s.history ++ [.rxArrive b] } := by
  simp [lineStep, h, State.record]

theorem lineStep_full {s : State} (b : Byte) (h : s.params.rxCap ≤ s.rxb.length) :
    lineStep b s = { s with history := s.history ++ [.rxOverrun b] } := by
  simp [lineStep, Nat.not_lt.2 h, State.record]

theorem hostLoopStep_none {s : State} (h : s.hostLoop = none) : hostLoopStep s = s := by
  simp [hostLoopStep, h]

theorem hostLoopStep_request {s : State} {l : HostLoop} (h : s.hostLoop = some l) (hp : l.phase = .request) :
    hostLoopStep s = loopPresent l s := by
  simp [hostLoopStep, h, hp]

theorem hostLoopStep_await {s : State} {l : HostLoop} (h : s.hostLoop = some l) (hp : l.phase = .await) :
    hostLoopStep s = loopAwait l s := by
  simp [hostLoopStep, h, hp]

theorem loopPresent_ready {s : State} (l : HostLoop) (h : s.st = .idle) : loopPresent l s = { s with
    reqValid := true, req := encodeRequest l.call.command s.req, hostLoop := some { l with phase := .await } } := by
  simp [loopPresent, State.reqReady, h, presentRequest]

theorem loopPresent_waits {s : State} (l : HostLoop) (h : s.st ≠ .idle) : loopPresent l s = s := by
  simp [loopPresent, State.reqReady, h]

theorem loopAwait_waits {s : State} (l : HostLoop) (h : s.reqValid = true ∨ s.rNew = false) : loopAwait l s = s := by
  rcases h with h | h <;> simp [loopAwait, h]

/-- The moves of the host, in or out of a loop. Apart from the request port it writes its own variables only. -/
inductive HostMove (s : State) : State → Prop
  | none : HostMove s s
  | present (r : Request) (h : s.hostLoop = .none) : HostMove s { s with reqValid := true, req := r }
  | withdraw (h : s.hostLoop = .none) : HostMove s { s with reqValid := false }
  | read (h : s.hostLoop = .none) (w : s.written = true) : HostMove s { s with hostReading := some s.resultView }
  | start (c : ReadCall) (n : Nat) (h : s.hostLoop = .none) (hn : n ≠ 0) : HostMove s { s with
      hostLoop := some { call := c, maxAttempts := n, attempts := 1, phase := .request }, hostOutcome := .none }
  | loopPresent (l : HostLoop) (h : s.hostLoop = some l) (hp : l.phase = .request) (ready : s.st = .idle) :
      HostMove s { s with
        reqValid := true, req := encodeRequest l.call.command s.req, hostLoop := some { l with phase := .await } }
  | loopReturn (l : HostLoop) (out : ReadOutcome) (h : s.hostLoop = some l) (hp : l.phase = .await)
      (hv : s.reqValid = false) (hn : s.rNew = true)
      (hd : retryDecision s.resultView l.attempts l.maxAttempts = some out) : HostMove s { s with
        hostReading := some s.resultView, hostLoop := .none, hostOutcome := some out }
  | loopAgain (l : HostLoop) (h : s.hostLoop = some l) (hp : l.phase = .await) (hv : s.reqValid = false)
      (hn : s.rNew = true) (hd : retryDecision s.resultView l.attempts l.maxAttempts = .none) : HostMove s { s with
        hostReading := some s.resultView
        hostLoop := some { l with attempts := l.attempts + 1, phase := .request } }

theorem hostLoopStep_move (s : State) : HostMove s (hostLoopStep s) := by
  unfold hostLoopStep
  split
  · exact .none
  · rename_i l hl
    split
    · rename_i hp
      unfold loopPresent
      split
      · exact .loopPresent l hl hp (by simpa [State.reqReady] using ‹s.reqReady = true›)
      · exact .none
    · rename_i hp
      unfold loopAwait
      split
      · rename_i hc
        split
        · exact .loopReturn l _ hl hp hc.1 hc.2 ‹_›
        · exact .loopAgain l hl hp hc.1 hc.2 ‹_›
      · exact .none

theorem hostAction_next {act : State → Result} {s t : State} (h : hostAction act s = .next t) :
    t = s ∨ (s.hostLoop = none ∧ act s = .next t) := by
  unfold hostAction at h
  split at h
  · exact .inl (by simpa using h.symm)
  · exact .inr ⟨by simpa using ‹¬ s.hostLoop.isSome = true›, h⟩

/-- A turn that is neither the block's, nor the UART's, nor the line's, nor a reset, is a host move. -/
theorem hostTurn_move {turn : Turn} {s t : State} (h : takeTurn turn s = .next t)
    (ht : (∃ r, turn = .present r) ∨ turn = .withdraw ∨ turn = .readResult ∨ (∃ c n, turn = .call c n) ∨
      turn = .hostLoop) : HostMove s t := by
  rcases ht with ⟨r, rfl⟩ | rfl | rfl | ⟨c, n, rfl⟩ | rfl <;> simp only [takeTurn] at h
  · rcases hostAction_next h with rfl | ⟨hl, h⟩
    · exact .none
    · cases h; exact .present r hl
  · rcases hostAction_next h with rfl | ⟨hl, h⟩
    · exact .none
    · cases h; exact .withdraw hl
  · rcases hostAction_next h with rfl | ⟨hl, h⟩
    · exact .none
    · unfold readResult at h
      split at h
      · cases h; exact .read hl ‹_›
      · cases h
  · rcases hostAction_next h with rfl | ⟨hl, h⟩
    · exact .none
    · unfold startLoop at h
      split at h
      · cases h
      · cases h; exact .start c n hl ‹_›
  · cases h; exact hostLoopStep_move s

end Sys2Proof.Machine
end

