-- ==== Sys2Proof/Laws/PerInstr.lean ====
section
/-! SUPPORT. Statements about every command as syntax, one lemma per constructor. -/

namespace Sys2Proof.Laws

/-- The length of a command on the wire is decided by its modifier alone: 2 bytes for 0b10, else 1 (R83). -/
def WireLength.Statement (i : Instr) : Prop :=
  (encode i).length = if i.modifier = 0b10#2 then 2 else 1

theorem WireLength.getpos (base : Byte) (res : Resolution) : WireLength.Statement (.getpos base res) := rfl

theorem WireLength.getturns (base : Byte) : WireLength.Statement (.getturns base) := rfl

theorem WireLength.setzero (base : Byte) : WireLength.Statement (.setzero base) := rfl

theorem WireLength.resetdev (base : Byte) : WireLength.Statement (.resetdev base) := rfl

theorem WireLength.reservedModifier (base : Byte) : WireLength.Statement (.reservedModifier base) := rfl

theorem WireLength.undefinedSubCommand (base sub : Byte) : WireLength.Statement (.undefinedSubCommand base sub) := rfl

/-- Presenting a command changes no field of the port that the command does not name (D29). -/
def UnnamedFieldsKept.Statement (i : Instr) : Prop :=
  ∀ lines : Request,
    (i.sub? = none → (encodeRequest i lines).sub = lines.sub) ∧
    ((∀ base res, i ≠ .getpos base res) → (encodeRequest i lines).res12 = lines.res12)

theorem UnnamedFieldsKept.getpos (base : Byte) (res : Resolution) :
    UnnamedFieldsKept.Statement (.getpos base res) :=
  fun _ => ⟨fun _ => rfl, fun h => absurd rfl (h base res)⟩

theorem UnnamedFieldsKept.getturns (base : Byte) : UnnamedFieldsKept.Statement (.getturns base) :=
  fun _ => ⟨fun _ => rfl, fun _ => rfl⟩

theorem UnnamedFieldsKept.setzero (base : Byte) : UnnamedFieldsKept.Statement (.setzero base) :=
  fun _ => ⟨fun h => (nomatch h), fun _ => rfl⟩

theorem UnnamedFieldsKept.resetdev (base : Byte) : UnnamedFieldsKept.Statement (.resetdev base) :=
  fun _ => ⟨fun h => (nomatch h), fun _ => rfl⟩

theorem UnnamedFieldsKept.reservedModifier (base : Byte) : UnnamedFieldsKept.Statement (.reservedModifier base) :=
  fun _ => ⟨fun _ => rfl, fun _ => rfl⟩

theorem UnnamedFieldsKept.undefinedSubCommand (base sub : Byte) :
    UnnamedFieldsKept.Statement (.undefinedSubCommand base sub) :=
  fun _ => ⟨fun h => (nomatch h), fun _ => rfl⟩

end Sys2Proof.Laws
end

