-- ==== Sys2Proof/Laws/Turns.lean ====
section
/-! SUPPORT. What a command's step, a turn and a step can do, said once; which turns change nothing; and that a turn does
not read the agenda. -/

namespace Sys2Proof.Machine

/-- In IDLE every command's step is the taking of its request. -/
theorem exec_idle {i : Instr} {s : State} (h : s.st = .idle) :
    exec i s = .next (takeRequest (encodeRequest i s.req) s) := by
  cases i <;> simp [exec, execGetpos, execGetturns, execSetzero, execResetdev, execReservedModifier,
    execUndefinedSubCommand, runCommand, h]

/-- A presented request is taken as the port holds it: a request that decodes is the presentation of its command. -/
theorem encodeRequest_of_decode {i : Instr} {r : Request} (h : decodeRequest r = .ok i) : encodeRequest i r = r := by
  obtain ⟨addr, cmd, sub, res12⟩ := r
  simp only [decodeRequest] at h
  split at h
  · cases h
  · rcases twoBits_cases cmd with rfl | rfl | rfl | rfl
    · cases h; simp [encodeRequest, Instr.base, Instr.modifier, Instr.sub?, Resolution.toBit_ofBit]
    · cases h; rfl
    · obtain rfl : extendedCommand addr sub = i := by simpa using h
      unfold extendedCommand
      split
      · subst sub; rfl
      · split
        · subst sub; rfl
        · rfl
    · cases h; rfl

/-- The block's turn in IDLE with a request presented, whether it decodes or not. -/
theorem blockTurn_take {s : State} (h : s.st = .idle) (hv : s.reqValid = true) :
    blockTurn s = .next (takeRequest s.req s) := by
  simp only [blockTurn, h, if_true, hv]
  split
  · rw [exec_idle h, encodeRequest_of_decode ‹_›]
  · rfl

/-- The block's turn in IDLE without a request. -/
theorem blockTurn_rest {s : State} (h : s.st = .idle) (hv : s.reqValid = false) : blockTurn s = .next s := by
  simp [blockTurn, h, hv]

/-- The block's turn outside IDLE is the framer's step. -/
theorem blockTurn_busy {s : State} (h : s.st ≠ .idle) : blockTurn s = framerStep s := by
  simp only [blockTurn, h, if_false]
  split
  · rename_i i hf
    rcases inFlight_cases hf with ⟨rfl, hc⟩ | ⟨rfl, hc⟩ | ⟨rfl, hc, hs⟩ | ⟨rfl, hc, hs⟩
    · simp only [exec, execGetpos, runCommand, h, if_false, hf, if_true]
      exact readBody_eq_framerStep (.inl hc) (by simp [hostByte, hc]) (by funext r; simp [latchedDecode, hc])
    · simp only [exec, execGetturns, runCommand, h, if_false, hf, if_true]
      exact readBody_eq_framerStep (.inr hc) (by simp [hostByte, hc]) (by funext r; simp [latchedDecode, hc])
    · simp only [exec, execSetzero, runCommand, h, if_false, hf, if_true]
      exact extendedBody_eq_framerStep hc (by simp [hostByte, hc]) hs
    · simp only [exec, execResetdev, runCommand, h, if_false, hf, if_true]
      exact extendedBody_eq_framerStep hc (by simp [hostByte, hc]) hs
  · rfl

/-- What the block's turn can do. -/
theorem blockTurn_next {s t : State} (h : blockTurn s = .next t) :
    (s.st = .idle ∧ s.reqValid = true ∧ t = takeRequest s.req s) ∨ (s.st = .idle ∧ s.reqValid = false ∧ t = s) ∨
    (s.st ≠ .idle ∧ FramerMove s t) := by
  by_cases hi : s.st = .idle
  · cases hv : s.reqValid
    · rw [blockTurn_rest hi hv] at h; cases h; exact .inr (.inl ⟨hi, rfl, rfl⟩)
    · rw [blockTurn_take hi hv] at h; cases h; exact .inl ⟨hi, rfl, rfl⟩
  · rw [blockTurn_busy hi] at h; exact .inr (.inr ⟨hi, framerStep_next h⟩)

/-- The moves of a turn. -/
inductive TurnMove (s : State) : Turn → State → Prop
  | take (h : s.st = .idle) (hv : s.reqValid = true) : TurnMove s .block (takeRequest s.req s)
  | rest (h : s.st = .idle) (hv : s.reqValid = false) : TurnMove s .block s
  | framer {t : State} (h : s.st ≠ .idle) (m : FramerMove s t) : TurnMove s .block t
  | uart : TurnMove s .uart (uartStep s)
  | line (b : Byte) : TurnMove s (.line b) (lineStep b s)
  | host {turn : Turn} {t : State} (m : HostMove s t) (hb : turn.serves = none ∨ turn = .hostLoop) (hr : turn ≠ .rst) :
      TurnMove s turn t
  | rst : TurnMove s .rst s.resetBlock

theorem takeTurn_next {turn : Turn} {s t : State} (h : takeTurn turn s = .next t) : TurnMove s turn t := by
  cases turn with
  | block =>
    rcases blockTurn_next h with ⟨hi, hv, rfl⟩ | ⟨hi, hv, rfl⟩ | ⟨hi, m⟩
    · exact .take hi hv
    · exact .rest hi hv
    · exact .framer hi m
  | uart => cases h; exact .uart
  | line b => cases h; exact .line b
  | rst => cases h; exact .rst
  | present r => exact .host (hostTurn_move h (by simp)) (.inl rfl) (by simp)
  | withdraw => exact .host (hostTurn_move h (by simp)) (.inl rfl) (by simp)
  | readResult => exact .host (hostTurn_move h (by simp)) (.inl rfl) (by simp)
  | call c n => exact .host (hostTurn_move h (by simp)) (.inl rfl) (by simp)
  | hostLoop => exact .host (hostTurn_move h (by simp)) (.inr rfl) (by simp)

/-- A step is a move of the next turn. -/
theorem step_next {s t : State} (h : step s = .next t) : TurnMove s.popTurn s.nextTurn t := takeTurn_next h

/-- A turn whose agent has no enabled step changes nothing (R21). -/
theorem takeTurn_disabled {turn : Turn} {a : Agent} {s t : State} (ha : turn.serves = some a) (hd : a.enabled s = false)
    (h : takeTurn turn s = .next t) : t = s := by
  cases turn <;> simp only [Turn.serves, Option.some.injEq, reduceCtorEq] at ha <;> subst ha <;>
    simp only [Agent.enabled] at hd
  · rcases blockTurn_next h with ⟨hi, hv, rfl⟩ | ⟨_, _, rfl⟩ | ⟨_, m⟩
    · simp [State.blockEnabled, hi, hv] at hd
    · rfl
    · cases m <;> simp_all [State.blockEnabled, State.txbe, State.txc]
  · cases h; exact uartStep_nil (by simpa [State.txc] using hd)
  · cases hd
  · cases h
    unfold State.loopEnabled at hd
    unfold hostLoopStep loopPresent loopAwait
    split
    · rfl
    · split <;> simp_all

/-- The framer does not read the agenda. -/
theorem framerStep_agenda {s t : State} (l : List Turn) (h : framerStep s = .next t) :
    framerStep { s with agenda := l } = .next { t with agenda := l } := by
  have m := framerStep_next h
  clear h
  apply FramerMove.framerStep_eq
  cases m with
  | idle h => exact .idle (s := { s with agenda := l }) h
  | preFlush h => exact .preFlush (s := { s with agenda := l }) h
  | txEnable h => exact .txEnable (s := { s with agenda := l }) h
  | txSettle h => exact .txSettle (s := { s with agenda := l }) h
  | txByte0Read h hc room => exact .txByte0Read (s := { s with agenda := l }) h hc room
  | txByte0Extended h hc room => exact .txByte0Extended (s := { s with agenda := l }) h hc room
  | txByte1 h room => exact .txByte1 (s := { s with agenda := l }) h room
  | held h full => exact .held (s := { s with agenda := l }) h full
  | drained h empty => exact .drained (s := { s with agenda := l }) h empty
  | draining h busy => exact .draining (s := { s with agenda := l }) h busy
  | rxEnable h => exact .rxEnable (s := { s with agenda := l }) h
  | rxWait h => exact .rxWait (s := { s with agenda := l }) h
  | badCount n h hn ne => exact .badCount (s := { s with agenda := l }) n h hn ne
  | extendedDone h hc hn => exact .extendedDone (s := { s with agenda := l }) h hc hn
  | toRead h hc hn => exact .toRead (s := { s with agenda := l }) h hc hn
  | rxLo b rest h hb => exact .rxLo (s := { s with agenda := l }) b rest h hb
  | rxHi b rest h hb => exact .rxHi (s := { s with agenda := l }) b rest h hb
  | verified h hv => exact .verified (s := { s with agenda := l }) h hv
  | corrupt h hv => exact .corrupt (s := { s with agenda := l }) h hv
  | postFlush h => exact .postFlush (s := { s with agenda := l }) h
  | quiet h => exact .quiet (s := { s with agenda := l }) h

/-- A host action outside a loop does not read the agenda, if its effect does not. -/
theorem hostAction_agenda {act : State → Result} {s t : State} (l : List Turn)
    (hact : ∀ u, act s = .next u → act { s with agenda := l } = .next { u with agenda := l })
    (h : hostAction act s = .next t) : hostAction act { s with agenda := l } = .next { t with agenda := l } := by
  unfold hostAction at h ⊢
  split at h
  · rename_i hl; cases h; simp only [hl, if_true]
  · rename_i hl; simp only [hl]; exact hact t h

/-- A host loop does not read the agenda. -/
theorem hostLoopStep_agenda (l : List Turn) (s : State) :
    hostLoopStep { s with agenda := l } = { hostLoopStep s with agenda := l } := by
  rcases Option.eq_none_or_eq_some s.hostLoop with hl | ⟨v, hl⟩
  · rw [hostLoopStep_none hl, hostLoopStep_none (s := { s with agenda := l }) hl]
  · have hl' : State.hostLoop { s with agenda := l } = some v := hl
    cases hp : v.phase
    · rw [hostLoopStep_request hl hp, hostLoopStep_request hl' hp]
      by_cases h : s.st = .idle
      · rw [loopPresent_ready v h, loopPresent_ready (s := { s with agenda := l }) v h]
      · rw [loopPresent_waits v h, loopPresent_waits (s := { s with agenda := l }) v h]
    · rw [hostLoopStep_await hl hp, hostLoopStep_await hl' hp]
      unfold loopAwait State.resultView
      by_cases h : s.reqValid = false ∧ s.rNew = true
      · simp only [h, and_self, if_true]; split <;> rfl
      · simp only [h, if_false]

/-- A turn does not read the agenda. -/
theorem takeTurn_agenda {turn : Turn} {s t : State} (l : List Turn) (h : takeTurn turn s = .next t) :
    takeTurn turn { s with agenda := l } = .next { t with agenda := l } := by
  cases turn with
  | block =>
    simp only [takeTurn] at h ⊢
    by_cases hi : s.st = .idle
    · rcases Bool.eq_false_or_eq_true s.reqValid with hv | hv
      · rw [blockTurn_take hi hv] at h; cases h
        rw [blockTurn_take (s := { s with agenda := l }) hi hv]
        unfold takeRequest; split <;> rfl
      · rw [blockTurn_rest hi hv] at h; cases h
        exact blockTurn_rest (s := { s with agenda := l }) hi hv
    · rw [blockTurn_busy hi] at h
      rw [blockTurn_busy (s := { s with agenda := l }) hi]
      exact framerStep_agenda l h
  | uart => cases h; simp only [takeTurn, uartStep]; split <;> rfl
  | line b => cases h; simp only [takeTurn, lineStep]; split <;> rfl
  | present r =>
    simp only [takeTurn] at h ⊢
    exact hostAction_agenda l (fun _ h => by cases h; rfl) h
  | withdraw =>
    simp only [takeTurn] at h ⊢
    exact hostAction_agenda l (fun _ h => by cases h; rfl) h
  | readResult =>
    simp only [takeTurn] at h ⊢
    refine hostAction_agenda l (fun u h => ?_) h
    unfold readResult at h ⊢
    split at h
    · rename_i hw; cases h; simp only [hw, if_true]; rfl
    · cases h
  | call c n =>
    simp only [takeTurn] at h ⊢
    refine hostAction_agenda l (fun u h => ?_) h
    unfold startLoop at h ⊢
    split at h
    · cases h
    · rename_i hn; cases h; simp only [hn, if_false]
  | hostLoop => cases h; simp only [takeTurn, hostLoopStep_agenda]
  | rst => cases h; rfl

/-- A turn does not write the agenda. -/
theorem takeTurn_keeps_agenda {turn : Turn} {s t : State} (h : takeTurn turn s = .next t) : t.agenda = s.agenda := by
  have e := (takeTurn_agenda s.agenda h).symm.trans h
  injection e with e
  rw [← e]

/-- With turns on the agenda, a step is the first of them. -/
theorem step_cons {turn : Turn} {l : List Turn} {s : State} (h : s.agenda = turn :: l) :
    step s = takeTurn turn { s with agenda := l } := by
  simp [step, State.nextTurn, State.popTurn, h]

/-- A run of several steps begins with one. -/
theorem run_succ {n : Nat} {s t : State} (h : step s = .next t) :
    Host.Core.run core (n + 1) s = Host.Core.run core n t := by
  have h' : core.step s = .next t := h
  simp only [Host.Core.run, h']

/-- Every beginning of an unending run (R21) is a run of the machine over an agenda. -/
theorem IsRun.beginning {states : Nat → State} {turns : Nat → Turn} (h : IsRun states turns) (n k : Nat) :
    Host.Core.run core n { states k with agenda := (List.range' k n).map turns } =
      .next { states (k + n) with agenda := [] } := by
  induction n generalizing k with
  | zero => rfl
  | succ n ih =>
    have hs : step { states k with agenda := (List.range' k (n + 1)).map turns } =
        .next { states (k + 1) with agenda := (List.range' (k + 1) n).map turns } := by
      rw [step_cons (turn := turns k) (l := (List.range' (k + 1) n).map turns) (by simp [List.range'_succ])]
      exact takeTurn_agenda (s := states k) _ (h k)
    rw [run_succ hs, show k + (n + 1) = k + 1 + n by omega]
    exact ih (k + 1)

end Sys2Proof.Machine
end

