-- ==== Sys2Proof/Tests/Slice0.lean ====
section
/-! SUPPORT. The model's own tests, their expected results taken from the spec (95_test_vectors.md, 30_encoding.md), and
the witnesses: for each obligation with hypotheses, concrete data that meets all of them, clause by clause. -/

namespace Sys2Proof.Tests

open Sys2Proof Sys2Proof.Machine

/-- The next state, where there is one. -/
def next? : Result → Option State
  | .next s => some s
  | .fault _ => none
  | .refused _ => none

/-- A state inside a transaction of the device at 0x54: FSM state, modifier, sub-command, `TXQ`, `RXB`. -/
def during (st : Fsm) (cmd : BitVec 2) (sub : Byte) (txq rxb : List Byte) : State :=
  { State.reset with
    st := st
    dir := if st.transmitting then .transmit else .receive
    latch := ⟨0x54, cmd, sub, false⟩
    txq := txq
    rxb := rxb }

/-- A state of IDLE with a request presented. -/
def presented (r : Request) : State := { State.reset with reqValid := true, req := r }

/-! ### Well-formedness: an ill-formed term for each check -/

theorem test_wf_misaligned_base : Instr.wellFormed (.getpos 0x55 .res14) = false := by decide
theorem test_wf_misaligned_base_high_bit : Instr.wellFormed (.reservedModifier 0x56) = false := by decide
theorem test_wf_sub_set_zero : Instr.wellFormed (.undefinedSubCommand 0x54 0x5E) = false := by decide
theorem test_wf_sub_reset : Instr.wellFormed (.undefinedSubCommand 0x54 0x75) = false := by decide
theorem test_wf_sub_other : Instr.wellFormed (.undefinedSubCommand 0x54 0x5F) = true := by decide

/-! ### Decoding: the bit patterns of R90, with the slot bits written out -/

theorem test_decode_getpos : decodeTableWord 8 0b11111100 = some (.getpos 0xFC .res14) := by decide
theorem test_decode_getturns : decodeTableWord 8 0b00000101 = some (.getturns 0x04) := by decide
theorem test_decode_setzero : decodeTableWord 16 0b1000001001011110 = some (.setzero 0x80) := by decide
theorem test_decode_resetdev : decodeTableWord 16 0b0000011001110101 = some (.resetdev 0x04) := by decide
theorem test_decode_reserved : decodeTableWord 8 0b01010111 = some (.reservedModifier 0x54) := by decide
theorem test_decode_undefined :
    decodeTableWord 16 0b1111111011111111 = some (.undefinedSubCommand 0xFC 0xFF) := by decide

/-- R83: the length is decided by the modifier alone. -/
theorem test_decode_takes_the_length :
    decodeWire .res14 [0x55, 0x5E] = .ok (.getturns 0x54, [0x5E]) ∧
    decodeWire .res14 [0x56] = .error .missingSubCommand ∧ decodeWire .res14 [] = .error .noBytes :=
  ⟨rfl, rfl, rfl⟩

/-- R186, L2-TR-18: a misaligned address is no command. -/
theorem test_decode_request_misaligned : decodeRequest ⟨0x55, 0, 0, false⟩ = .error .misalignedAddress := rfl

/-- L1-E12: the wire bytes at base 0x54. -/
theorem test_encode :
    encode (.getpos 0x54 .res14) = [0x54] ∧ encode (.getturns 0x54) = [0x55] ∧
    encode (.setzero 0x54) = [0x56, 0x5E] ∧ encode (.resetdev 0x54) = [0x56, 0x75] := by decide

/-! ### Checksum and decoder (L2-CK, L2-DC) -/

theorem test_verify_passes :
    [0xC000, 0x3FFF, 0x4034, 0xFFFC, 0x6000, 0x8001, 0x4002, 0x0003, 0x9000, 0x9FFF, 0x6AAA, 0x9555, 0x3440, 0x4031].all
      (fun raw => verify raw) = true := by decide
theorem test_verify_fails :
    [0x0000, 0xFFFF, 0x8034, 0x4000, 0x8000, 0x7FFF, 0xBFFF, 0x4035, 0x4134, 0x0034, 0xC034, 0x4037].all
      (fun raw => !verify raw) = true := by decide
theorem test_enc :
    enc 0x0000 = 0xC000 ∧ enc 0x0001 = 0x8001 ∧ enc 0x0034 = 0x4034 ∧ enc 0x1FFF = 0x9FFF ∧ enc 0x2000 = 0x6000 ∧
    enc 0x3FFC = 0xFFFC ∧ enc 0x3FFF = 0x3FFF := by decide
theorem test_position :
    decodePosition 0x4034 .res14 = 52 ∧ decodePosition 0x4034 .res12 = 13 ∧ decodePosition 0xFFFC .res12 = 4095 ∧
    decodePosition 0x3FFF .res14 = 16383 ∧ decodePosition 0x9555 .res12 = 1365 := by decide
theorem test_turns :
    decodeTurns 0x6000 = 0xE000 ∧ decodeTurns 0x9FFF = 0x1FFF ∧ decodeTurns 0x3FFF = 0xFFFF ∧ decodeTurns 0x6AAA = 0xEAAA ∧
    decodeTurns 0xC000 = 0 := by decide
theorem test_count_saturates : sat8 300 = 255 ∧ sat8 255 = 255 ∧ sat8 3 = 3 := by decide

/-! ### One step of each command -/

/-- L2-TR-1: VERIFY of raw 0x4034 gives position 52. -/
theorem test_getpos_verify :
    (next? (exec (.getpos 0x54 .res14) { during .verify 0 0 [] [] with raw := 0x4034, cnt := 2 })).map
      (fun t => (t.st, t.rStatus, t.rOk, t.rData, t.rCount, t.rNew)) =
    some (.postFlush, .ok, true, 0x0034, 2, true) := by decide

/-- L1-E1, L3-P6: raw 0x8034 is a checksum mismatch, not position 52. -/
theorem test_getpos_mismatch :
    (next? (exec (.getpos 0x54 .res14) { during .verify 0 0 [] [] with raw := 0x8034, cnt := 2 })).map
      (fun t => (t.rStatus, t.rOk, t.rData, t.rCount)) =
    some (.checksumMismatch, false, 0xFFFF, 2) := by decide

/-- L2-TR-11: -1 turns has the sentinel's pattern, with `R_OK = 1`. -/
theorem test_getturns_verify :
    (next? (exec (.getturns 0x54) { during .verify 1 0 [] [] with raw := 0x3FFF, cnt := 2 })).map
      (fun t => (t.rStatus, t.rOk, t.rData, t.rCount)) =
    some (.ok, true, 0xFFFF, 2) := by decide

/-- L3-P1: the host byte of `GETTURNS 0x54` is 0x55. -/
theorem test_getturns_host_byte :
    (next? (exec (.getturns 0x54) (during .txByte0 1 0 [] []))).map (fun t => (t.st, t.txq)) =
    some (.txDrain, [0x55]) := by decide

/-- L2-TR-13: after 0x56 goes 0x5E. -/
theorem test_setzero_sub_command :
    (next? (exec (.setzero 0x54) (during .txByte1 2 0x5E [0x56] []))).map (fun t => (t.st, t.txq)) =
    some (.txDrain, [0x56, 0x5E]) := by decide

/-- L2-TR-13: no response byte, status OK; the last wait is the holdoff. -/
theorem test_setzero_completes :
    (next? (exec (.setzero 0x54) (during .rxCheck 2 0x5E [] []))).map (fun t => (t.st, t.rStatus, t.rData, t.rCount)) =
      some (.postFlush, .ok, 0, 0) ∧
    (next? (exec (.setzero 0x54) (during .quiet 2 0x5E [] []))).map (fun t => (t.st, t.history)) =
      some (.idle, [.wait .extHoldoff]) := by decide

/-- L2-TR-14: the wire bytes 0x56 0x75. -/
theorem test_resetdev_bytes :
    (next? (exec (.resetdev 0x54) (during .txByte0 2 0x75 [] []))).map (fun t => (t.st, t.txq)) =
      some (.txByte1, [0x56]) ∧
    (next? (exec (.resetdev 0x54) (during .txByte1 2 0x75 [0x56] []))).map (fun t => (t.st, t.txq)) =
      some (.txDrain, [0x56, 0x75]) := by decide

/-- L2-TR-15: an answered extended command is a byte-count mismatch. -/
theorem test_resetdev_answered :
    (next? (exec (.resetdev 0x54) (during .rxCheck 2 0x75 [] [0x12]))).map
      (fun t => (t.st, t.rStatus, t.rData, t.rCount, t.rxb)) =
    some (.postFlush, .byteCountMismatch, 0xFFFF, 1, [0x12]) := by decide

/-- L2-TR-16: the reserved modifier is rejected, and nothing is sent or latched. -/
theorem test_reserved_modifier :
    (next? (exec (.reservedModifier 0x54) (presented ⟨0x54, 3, 0, false⟩))).map
      (fun t => (t.st, t.rStatus, t.rData, t.txq, t.latch)) =
    some (.idle, .illegalRequest, 0xFFFF, [], ⟨0, 0, 0, false⟩) := by decide

/-- L2-TR-17: an undefined sub-command likewise. -/
theorem test_undefined_sub_command :
    (next? (exec (.undefinedSubCommand 0x54 0x00) (presented ⟨0x54, 2, 0, false⟩))).map
      (fun t => (t.st, t.rStatus, t.rData, t.txq, t.latch)) =
    some (.idle, .illegalRequest, 0xFFFF, [], ⟨0, 0, 0, false⟩) := by decide

/-- L2-TR-18: a misaligned address, which is no command, is rejected by the block's turn. -/
theorem test_misaligned_request :
    (next? (step (presented ⟨0x55, 0, 0, false⟩))).map (fun t => (t.st, t.rStatus, t.rData, t.rCount, t.rNew)) =
    some (.idle, .illegalRequest, 0xFFFF, 0, true) := by decide

/-- The command of a table word is the first to run after reset. -/
theorem test_first_command_after_reset :
    (next? (step (State.reset.withFetchWord 16 0x565E))).map (fun t => (t.st, t.latch, t.reqValid)) =
    some (.preFlush, ⟨0x54, 2, 0x5E, false⟩, false) := by decide

/-! ### The other agents -/

/-- L2-TA-3, and L2-TA-8's second step: a byte is driven exactly in Transmit. -/
theorem test_uart :
    (uartStep (during .txDrain 0 0 [0x54] [])).history = [.wire 0x54 true] ∧
    (uartStep (during .idle 0 0 [0x54] [])).history = [.wire 0x54 false] := by decide

/-- L2-TR-6: with `RX_CAP = 2` the third byte is lost. -/
theorem test_overrun :
    lineStep 0x77 { during .rxWait 0 0 [] [0x34, 0x40] with params := { Params.nominal with rxCap := 2 } } =
    { during .rxWait 0 0 [] [0x34, 0x40] with
      params := { Params.nominal with rxCap := 2 }, history := [.rxOverrun 0x77] } := by decide

/-- L2-TA-2, L2-TA-6: TX_DRAIN holds until the queue is empty, full or not; L2-TA-4: then it goes on. -/
theorem test_drain :
    (drain (during .txDrain 2 0x5E [0x56, 0x5E] [])).st = .txDrain ∧ (drain (during .txDrain 0 0 [0x54] [])).st = .txDrain ∧
    (drain (during .txDrain 0 0 [] [])).st = .rxEnable := by decide

/-- L2-TA-8: reset in TX_BYTE0 keeps the byte in `TXQ`. -/
theorem test_reset_keeps_queues :
    (during .txDrain 0 0 [0x54] [0xAA]).resetBlock.st = .idle ∧ (during .txDrain 0 0 [0x54] [0xAA]).resetBlock.dir = .receive ∧
    (during .txDrain 0 0 [0x54] [0xAA]).resetBlock.txq = [0x54] ∧
    (during .txDrain 0 0 [0x54] [0xAA]).resetBlock.rxb = [0xAA] := by decide

/-- L2-RT-1, L2-RT-3 to L2-RT-7: what the host loop does with an attempt's result. -/
theorem test_retry :
    retryDecision ⟨.ok, true, 0x34, 2⟩ 1 3 = some ⟨0x34, true, 1⟩ ∧
    retryDecision ⟨.byteCountMismatch, false, 0xFFFF, 1⟩ 1 3 = none ∧
    retryDecision ⟨.checksumMismatch, false, 0xFFFF, 2⟩ 2 3 = none ∧
    retryDecision ⟨.checksumMismatch, false, 0xFFFF, 2⟩ 3 3 = some ⟨0xFFFF, false, 3⟩ ∧
    retryDecision ⟨.illegalRequest, false, 0xFFFF, 0⟩ 1 3 = some ⟨0xFFFF, false, 1⟩ ∧
    retryDecision ⟨.byteCountMismatch, false, 0xFFFF, 0⟩ 1 1 = some ⟨0xFFFF, false, 1⟩ ∧
    retryDecision ⟨.ok, true, 0xFFFF, 2⟩ 1 3 = some ⟨0xFFFF, true, 1⟩ := by decide

/-- L2-RT-8, R222: no attempts is a broken precondition; R93, L3-P5: `READPOS 0x58, RES14` presents `GETPOS 0x58`. -/
theorem test_loop_start :
    startLoop (.turns 0x54) 0 State.reset = .fault .retryPrecondition ∧
    (loopPresent ⟨.position 0x58 .res14, 3, 1, .request⟩ State.reset).req = ⟨0x58, 0, 0, false⟩ ∧
    (loopPresent ⟨.turns 0x54, 3, 1, .request⟩ State.reset).req = ⟨0x54, 1, 0, false⟩ := ⟨rfl, by decide, by decide⟩

/-- R7, R51: the usable addresses of the nominal parameters are the 64 base addresses, from 0x00 to 0xFC. -/
theorem test_usable_addresses :
    Params.nominal.usableAddr.length = 64 ∧ 0x00 ∈ Params.nominal.usableAddr ∧ 0xFC ∈ Params.nominal.usableAddr ∧
    0x55 ∉ Params.nominal.usableAddr := by decide

/-! ### Witnesses: checksum and encodings -/

theorem witness_OneCheckFieldPassesForEachPayload : verify 0x4034 = true := by decide

theorem witness_SingleFlipDetectedDoubleFlipByIndexParity :
    verify 0x4034 = true ∧ 15 < 16 ∧ 0 < 16 ∧ (0 : Nat) ≠ 15 := by decide

theorem witness_WireDecodeOfEncodeIsTheCommand :
    Instr.wellFormed (.getpos 0xFC .res12) = true ∧ (∀ base r, Instr.getpos 0xFC .res12 = .getpos base r → r = .res12) :=
  ⟨by decide, fun _ _ h => by cases h; rfl⟩

theorem witness_WireEncodeOfDecodeIsTheBytes :
    decodeWire .res12 [0x56, 0xFF, 0x00] = .ok (.undefinedSubCommand 0x54 0xFF, [0x00]) := rfl

theorem witness_RequestDecodeAndEncodeAgree :
    Instr.wellFormed (.resetdev 0xFC) = true ∧ decodeRequest ⟨0xFC, 0, 0x12, true⟩ = .ok (.getpos 0xFC .res12) :=
  ⟨by decide, rfl⟩

theorem witness_CommandMapByMatchAndMask :
    (0xFC#8 &&& 0x03 = 0x00) ∧ (0xFD#8 &&& 0x03 = 0x01) ∧ (0x03#8 &&& 0x03 = 0x03) ∧
    (0xFE5E#16 &&& 0x03FF = 0x025E) ∧ (0x0275#16 &&& 0x03FF = 0x0275) ∧
    (0xFEFF#16 &&& 0x0300 = 0x0200 ∧ 0xFEFF#16 &&& 0x03FF ≠ 0x025E ∧ 0xFEFF#16 &&& 0x03FF ≠ 0x0275) := by decide

/-! ### Witnesses: the byte channel -/

theorem witness_UartTurnClocksOutTheHead :
    (during .txDrain 0 0 [0x54] []).txq = 0x54 :: [] ∧ (during .txDrain 0 0 [] []).txq = [] := by decide

theorem witness_LineTurnAppendsOrLosesTheByte :
    let p := { Params.nominal with rxCap := 2 }
    (let s := { during .rxWait 0 0 [] [0x34] with params := p }
     s.rxb.length < s.params.rxCap) ∧
    (let s := { during .rxWait 0 0 [] [0x34, 0x40] with params := p }
     s.params.rxCap ≤ s.rxb.length) := by decide

theorem witness_RxDropIsThatManyReads : 2 ≤ (during .preFlush 0 0 [] [0xAA, 0xBB]).rxb.length := by decide

theorem witness_BytesReachTheWireInWriteOrder :
    let s := { during .txDrain 2 0x5E [0x56, 0x5E] [] with history := [.txWrite 0x56, .txWrite 0x5E], agenda := [.uart] }
    (∃ t, step s = .next t ∧ t.txq = [0x5E]) ∧ wiresOf s.history ++ s.txq = [] ++ writesOf s.history :=
  ⟨⟨_, rfl, rfl⟩, by decide⟩

theorem witness_BytesLeaveTheReceiveBufferInArrivalOrder :
    let s := { during .rxLo 0 0 [] [0x34, 0x40] with
      cnt := 2, history := [.rxDrop 1, .rxArrive 0x34, .rxArrive 0x40], agenda := [.block] }
    (∃ t, step s = .next t ∧ t.rxb = [0x40]) ∧
    takenOf s.history ≤ ([0xAA] ++ arrivalsOf s.history).length ∧
    s.rxb = ([0xAA] ++ arrivalsOf s.history).drop (takenOf s.history) :=
  ⟨⟨_, rfl, rfl⟩, by decide⟩

/-! ### Witnesses: turnaround -/

theorem witness_EnterTransmitFromTxEnable :
    (during .txEnable 0 0 [] []).inFlight = some (.getpos 0x54 .res14) ∧ (during .txEnable 0 0 [] []).st = .txEnable := by
  decide

theorem witness_EnterReceiveFromRxEnable :
    (during .rxEnable 2 0x75 [] []).inFlight = some (.resetdev 0x54) ∧ (during .rxEnable 2 0x75 [] []).st = .rxEnable := by
  decide

theorem witness_TxDrainWaitsForTransmissionComplete :
    (let s := during .txDrain 1 0 [] []
     s.inFlight = some (.getturns 0x54) ∧ s.st = .txDrain ∧ s.txq = []) ∧
    (let s := during .txDrain 1 0 [0x55] []
     s.inFlight = some (.getturns 0x54) ∧ s.st = .txDrain ∧ s.txq ≠ []) := by decide

theorem witness_ControlOutputsFollowDirection :
    State.reset.params.ctrlStyle = .deRePair ∧
    { State.reset with params := { Params.nominal with ctrlStyle := .singleLine } }.params.ctrlStyle = .singleLine := by
  decide

theorem witness_EveryStepKeepsTheDirectionInvariant :
    let s := { during .rxEnable 0 0 [] [] with agenda := [.block] }
    DirectionInv s ∧ ∃ t, step s = .next t ∧ t.dir = .receive := ⟨by decide, _, rfl, rfl⟩

theorem witness_EveryStepKeepsTheDriveInvariant :
    let s := { during .txDrain 0 0 [0x54] [] with agenda := [.uart] }
    DirectionInv s ∧ DriveInv s ∧ (s.nextTurn = .rst → s.txq = []) ∧ ∃ t, step s = .next t ∧ t.txq = [] :=
  ⟨by decide, ⟨by decide, by decide, by decide⟩, by decide, _, rfl, rfl⟩

theorem witness_SettleWaitComesBeforeTheFirstByte :
    (let s := { during .txSettle 0 0 [] [] with history := [.setDir .transmit], agenda := [.block] }
     SettleInv s ∧ ∃ t, step s = .next t ∧ t.st = .txByte0) ∧
    (let s := { during .txByte0 2 0x5E [] [] with agenda := [.block] }
     ∃ t, step s = .next t ∧ t.history = s.history ++ [.txWrite 0x56] ∧
        Event.txWrite 0x56 ∈ ([.txWrite 0x56] : List Event) ∧ t.st = .txByte1) :=
  ⟨⟨⟨fun _ => ⟨[], rfl⟩, fun h => by cases h⟩, _, rfl, rfl⟩, _, rfl, rfl, by decide, rfl⟩

/-! ### Witnesses: the framer's states -/

theorem witness_IdleTakesAPresentedRequest :
    (let s := presented ⟨0xFC, 2, 0x75, true⟩
     s.st = .idle ∧ s.reqValid = true ∧ legal s.req = true) ∧
    (let s := presented ⟨0x57, 3, 0, false⟩
     s.st = .idle ∧ s.reqValid = true ∧ legal s.req = false) ∧
    (State.reset.st = .idle ∧ State.reset.reqValid = false) := by decide

theorem witness_FlushesDropTheBytesPresent :
    (during .preFlush 0 0 [] [0xAA]).inFlight = some (.getpos 0x54 .res14) ∧ (during .preFlush 0 0 [] [0xAA]).st = .preFlush ∧
    (during .postFlush 1 0 [] []).inFlight = some (.getturns 0x54) ∧ (during .postFlush 1 0 [] []).st = .postFlush := by decide

theorem witness_WaitsAreSingleSteps :
    ((during .txSettle 0 0 [] []).inFlight = some (.getpos 0x54 .res14) ∧ (during .txSettle 0 0 [] []).st = .txSettle) ∧
    ((during .rxWait 1 0 [] []).inFlight = some (.getturns 0x54) ∧ (during .rxWait 1 0 [] []).st = .rxWait) ∧
    ((during .quiet 2 0x5E [] []).inFlight = some (.setzero 0x54) ∧ (during .quiet 2 0x5E [] []).st = .quiet ∧
      (during .quiet 2 0x5E [] []).latch.cmd = 0b10#2) ∧
    ((during .quiet 1 0 [] []).inFlight = some (.getturns 0x54) ∧ (during .quiet 1 0 [] []).st = .quiet ∧
      (during .quiet 1 0 [] []).latch.cmd ≠ 0b10#2) := by decide

theorem witness_TxByte0WritesTheHostByte :
    (let s := during .txByte0 0 0 [0x01] []
     s.inFlight = some (.getpos 0x54 .res14) ∧ s.st = .txByte0 ∧ s.txq.length < s.params.txqCap) ∧
    (let s := during .txByte0 2 0x5E [0x01, 0x02] []
     s.inFlight = some (.setzero 0x54) ∧ s.st = .txByte0 ∧ s.params.txqCap ≤ s.txq.length) := by decide

theorem witness_TxByte1WritesTheSubCommand :
    (let s := during .txByte1 2 0x5E [0x56] []
     s.inFlight = some (.setzero 0x54) ∧ s.st = .txByte1 ∧ s.txq.length < s.params.txqCap ∧
       ∃ base, Instr.setzero 0x54 = .setzero base ∧ 0x5E#8 = 0x5E#8) ∧
    (let s := during .txByte1 2 0x75 [0x01, 0x56] []
     s.inFlight = some (.resetdev 0x54) ∧ s.st = .txByte1 ∧ s.params.txqCap ≤ s.txq.length ∧
       ∃ base, Instr.resetdev 0x54 = .resetdev base ∧ 0x75#8 = 0x75#8) :=
  ⟨⟨by decide, rfl, by decide, _, rfl, rfl⟩, by decide, rfl, by decide, _, rfl, rfl⟩

theorem witness_WrongByteCountIsReported :
    (let s := during .rxCheck 0 0 [] [0x34]
     s.inFlight = some (.getpos 0x54 .res14) ∧ s.st = .rxCheck ∧
       s.rxb.length ≠ (if s.latch.cmd = 0b10#2 then s.params.extRspBytes else 2)) ∧
    (let s := during .rxCheck 1 0 [] [0x00, 0x60, 0x00]
     s.inFlight = some (.getturns 0x54) ∧ s.st = .rxCheck ∧
       s.rxb.length ≠ (if s.latch.cmd = 0b10#2 then s.params.extRspBytes else 2)) ∧
    (let s := during .rxCheck 2 0x75 [] [0x12]
     s.inFlight = some (.resetdev 0x54) ∧ s.st = .rxCheck ∧
       s.rxb.length ≠ (if s.latch.cmd = 0b10#2 then s.params.extRspBytes else 2)) := by decide

theorem witness_ReadGoesOnWithTwoBytes :
    (let s := during .rxCheck 0 0 [] [0x34, 0x40]
     s.inFlight = some (.getpos 0x54 .res14) ∧ s.st = .rxCheck ∧ s.rxb.length = 2) ∧
    (let s := during .rxCheck 1 0 [] [0x34, 0x40]
     s.inFlight = some (.getturns 0x54) ∧ s.st = .rxCheck ∧ s.rxb.length = 2) := by decide

theorem witness_ExtendedCommandCompletesOnExpectedCount :
    (let s := during .rxCheck 2 0x5E [] []
     s.inFlight = some (.setzero 0x54) ∧ s.st = .rxCheck ∧ s.rxb.length = s.params.extRspBytes) ∧
    (let s := during .rxCheck 2 0x75 [] []
     s.inFlight = some (.resetdev 0x54) ∧ s.st = .rxCheck ∧ s.rxb.length = s.params.extRspBytes) := by decide

theorem witness_ResponseWordIsAssembledLowByteFirst :
    ((during .rxLo 0 0 [] [0x34, 0x40]).inFlight = some (.getpos 0x54 .res14) ∧
      (during .rxLo 0 0 [] [0x34, 0x40]).rxb = 0x34 :: [0x40] ∧ (during .rxLo 0 0 [] [0x34, 0x40]).st = .rxLo ∧
      ([0x40] : List Byte) = 0x40 :: []) ∧
    ((during .rxHi 1 0 [] [0x40]).inFlight = some (.getturns 0x54) ∧ (during .rxHi 1 0 [] [0x40]).rxb = 0x40 :: [] ∧
      (during .rxHi 1 0 [] [0x40]).st = .rxHi) := by decide

theorem witness_GetposPublishesThePosition :
    (let s := { during .verify 0 0 [] [] with raw := 0x4034 }
     s.inFlight = some (.getpos 0x54 .res14) ∧ s.st = .verify ∧ verify s.raw = true) ∧
    (let s := { during .verify 0 0 [] [] with raw := 0x8034, latch := ⟨0x54, 0, 0, true⟩ }
     s.inFlight = some (.getpos 0x54 .res12) ∧ s.st = .verify ∧ verify s.raw = false) := by decide

theorem witness_GetturnsPublishesTheTurnCount :
    (let s := { during .verify 1 0 [] [] with raw := 0x6000 }
     s.inFlight = some (.getturns 0x54) ∧ s.st = .verify ∧ verify s.raw = true) ∧
    (let s := { during .verify 1 0 [] [] with raw := 0xFFFF }
     s.inFlight = some (.getturns 0x54) ∧ s.st = .verify ∧ verify s.raw = false) := by decide

/-! ### Witnesses: the commands -/

theorem witness_IdleAcceptsTheFourCommands :
    State.reset.st = .idle ∧ (0xFC : Byte).toNat % 4 = 0 ∧
    (Instr.getpos 0xFC .res12 = .getpos 0xFC .res12 ∧
      (⟨0xFC, 0, 0, true⟩ : Request) = ⟨0xFC, 0#2, State.reset.req.sub, Resolution.res12 == .res12⟩) ∧
    (Instr.getturns 0xFC = .getturns 0xFC ∧
      (⟨0xFC, 1, 0, false⟩ : Request) = ⟨0xFC, 1#2, State.reset.req.sub, State.reset.req.res12⟩) ∧
    (Instr.setzero 0xFC = .setzero 0xFC ∧
      (⟨0xFC, 2, 0x5E, false⟩ : Request) = ⟨0xFC, 2#2, 0x5E#8, State.reset.req.res12⟩) ∧
    (Instr.resetdev 0xFC = .resetdev 0xFC ∧
      (⟨0xFC, 2, 0x75, false⟩ : Request) = ⟨0xFC, 2#2, 0x75#8, State.reset.req.res12⟩) := by decide

theorem witness_IllegalRequestsAreRejectedInIdle :
    State.reset.st = .idle ∧ (∃ base, Instr.reservedModifier 0x54 = .reservedModifier base) ∧
    (∃ base sub, Instr.undefinedSubCommand 0xFC 0x5F = .undefinedSubCommand base sub ∧ sub ≠ 0x5E#8 ∧ sub ≠ 0x75#8) ∧
    (Instr.getpos 0x55 .res14).base.toNat % 4 ≠ 0 :=
  ⟨rfl, ⟨_, rfl⟩, ⟨_, _, rfl, by decide, by decide⟩, by decide⟩

theorem witness_OtherRequestsWaitForIdle :
    (during .rxWait 0 0 [] []).st ≠ .idle ∧ (during .rxWait 0 0 [] []).inFlight ≠ some (.getturns 0x54) := by decide

theorem witness_NoAbortAndNoOverlap :
    let s := { during .rxWait 0 0 [] [] with agenda := [.block], reqValid := true }
    s.st ≠ .idle ∧ s.nextTurn ≠ .rst ∧ s.nextTurn = .block ∧ ∃ t, step s = .next t ∧ t.st = .rxCheck :=
  ⟨by decide, by decide, by decide, _, rfl, rfl⟩

theorem witness_CommandsRefineTheFramer :
    (during .rxHi 1 0 [] [0x40]).inFlight = some (.getturns 0x54) := by decide

theorem inv_during_rxLo : Inv { during .rxLo 0 0 [] [0x34, 0x40] with cnt := 2 } :=
  ⟨by decide, by decide, by decide, by decide, by decide⟩

theorem witness_EveryCommandHasANextState : Inv { during .rxLo 0 0 [] [0x34, 0x40] with cnt := 2 } := inv_during_rxLo

theorem witness_CommandsWriteTheirOwnRegistersOnly :
    ∃ t, exec (.getpos 0x54 .res14) (during .rxLo 0 0 [] [0x34, 0x40]) = .next t ∧ t.raw = 0x0034 ∧ t.rxb = [0x40] :=
  ⟨_, rfl, by decide, rfl⟩

theorem witness_StepRunsTheDecodedCommand :
    (let s := { presented ⟨0x54, 2, 0x75, false⟩ with agenda := [.block] }
     s.agenda = .block :: [] ∧ s.st = .idle ∧ s.reqValid = true ∧ decodeRequest s.req = .ok (.resetdev 0x54)) ∧
    (let s := { during .txByte1 2 0x5E [] [] with agenda := [.block] }
     s.agenda = .block :: [] ∧ s.inFlight = some (.setzero 0x54)) ∧
    { State.reset with agenda := [.line 0x34] }.agenda = .line 0x34 :: [] :=
  ⟨⟨rfl, rfl, rfl, rfl⟩, by decide, rfl⟩

theorem witness_ReservedModifierIsNeverTransmitted :
    let s := { during .txByte1 2 0x75 [0x56] [] with agenda := [.block] }
    Inv s ∧ ∃ t, step s = .next t ∧ t.history = s.history ++ [.txWrite 0x75] ∧
      Event.txWrite 0x75 ∈ ([.txWrite 0x75] : List Event) :=
  ⟨⟨by decide, by decide, by decide, by decide, by decide⟩, _, rfl, rfl, by decide⟩

/-! ### Witnesses: whole transactions -/

/-- IDLE with a request presented, a stale byte in `RXB` and turns planned. -/
def planned (r : Request) (agenda : List Turn) : State := { presented r with rxb := [0xAA], agenda := agenda }

theorem witness_GetposTransaction :
    let s := planned ⟨0x54, 0, 0, true⟩
      [.block, .block, .block, .block, .block, .uart, .block, .block, .block, .line 0x34, .line 0x40, .block, .block,
        .block, .block, .block, .block]
    (0x54 : Byte).toNat % 4 = 0 ∧ s.st = .idle ∧ s.txq = [] ∧ 1 ≤ s.params.txqCap ∧ 2 ≤ s.params.rxCap ∧
    s.hostLoop = none ∧ s.reqValid = true ∧ s.req = ⟨0x54, 0#2, 0, Resolution.res12 == .res12⟩ ∧
    verify (0x40#8 ++ 0x34#8) = true ∧ verify (0x80#8 ++ 0x34#8) = false := by decide

theorem witness_GetturnsTransaction :
    let s := planned ⟨0x54, 1, 0, false⟩
      [.block, .block, .block, .block, .block, .uart, .block, .block, .block, .line 0x00, .line 0x60, .block, .block,
        .block, .block, .block, .block]
    (0x54 : Byte).toNat % 4 = 0 ∧ s.st = .idle ∧ s.txq = [] ∧ 1 ≤ s.params.txqCap ∧ 2 ≤ s.params.rxCap ∧
    s.hostLoop = none ∧ s.reqValid = true ∧ s.req = ⟨0x54, 1#2, 0, false⟩ ∧
    verify (0x60#8 ++ 0x00#8) = true ∧ verify (0xFF#8 ++ 0xFF#8) = false := by decide

theorem witness_ExtendedTransaction :
    let s := planned ⟨0x54, 2, 0x75, false⟩
      [.block, .block, .block, .block, .block, .block, .uart, .uart, .block, .block, .block, .block, .block, .block]
    ((0x75 : Byte) = 0x5E#8 ∨ (0x75 : Byte) = 0x75#8) ∧ (0x54 : Byte).toNat % 4 = 0 ∧ s.st = .idle ∧ s.txq = [] ∧
    2 ≤ s.params.txqCap ∧ s.params.extRspBytes = 0 ∧ s.hostLoop = none ∧ s.reqValid = true ∧
    s.req = ⟨0x54, 2#2, 0x75, false⟩ := by decide

theorem witness_EveryTransactionReturnsToIdle :
    let s := { during .rxLo 0 0 [] [0x34, 0x40] with
      cnt := 2, written := true, rOk := true
      agenda := [.line 0x01, .uart, .present ⟨0x54, 1, 0, false⟩, .withdraw, .readResult, .call (.turns 0x54) 1, .hostLoop,
        .block] }
    Inv s ∧ s.st ≠ .idle ∧ (∀ c, Turn.call c 0 ∉ s.agenda) ∧ (Turn.readResult ∈ s.agenda → s.written = true) :=
  ⟨⟨by decide, by decide, by decide, by decide, by decide⟩, by decide, fun c => by simp, fun _ => rfl⟩

/-- A weakly fair schedule: the block finishes its transaction, then the line delivers for ever. -/
def fairTurns : Nat → Turn
  | 0 => .block
  | _ + 1 => .line 0xAA

/-- The run of that schedule from QUIET. -/
def fairStates : Nat → State
  | 0 => { during .quiet 0 0 [] [] with rNew := true, written := true, rOk := true }
  | n + 1 => (next? (takeTurn (fairTurns n) (fairStates n))).getD State.reset

theorem fairStates_rest (n : Nat) : (fairStates (n + 1)).st = .idle ∧ (fairStates (n + 1)).reqValid = false ∧
    (fairStates (n + 1)).txq = [] ∧ (fairStates (n + 1)).hostLoop = none := by
  induction n with
  | zero => decide
  | succ n ih =>
    have h : fairStates (n + 2) = lineStep 0xAA (fairStates (n + 1)) := rfl
    rw [h]
    unfold lineStep
    split <;> exact ih

theorem witness_EveryTransactionReturnsToIdle_fair :
    Inv (fairStates 0) ∧ IsRun fairStates fairTurns ∧ WeaklyFair fairStates fairTurns := by
  refine ⟨⟨by decide, by decide, by decide, by decide, by decide⟩, fun n => ?_, fun a n h => ?_⟩
  · cases n with
    | zero => rfl
    | succ n => rfl
  · obtain ⟨hs, hv, hq, hl⟩ := fairStates_rest n
    have h := h (n + 1) (by omega)
    cases a with
    | block => simp [Agent.enabled, State.blockEnabled, hs, hv] at h
    | host => simp [Agent.enabled, State.loopEnabled, hl] at h
    | uart => simp [Agent.enabled, State.txc, hq] at h
    | line => exact ⟨n + 1, by omega, rfl⟩

theorem witness_EachRequestPublishesExactlyOnce :
    let s := { during .verify 0 0 [] [] with raw := 0x8034, agenda := [.block] }
    s.nextTurn ≠ .rst ∧ ∃ t, step s = .next t ∧ publishedOf t.history = 1 := ⟨by decide, _, rfl, by decide⟩

theorem witness_TransactionsDependOnRequestAndEnvironmentOnly :
    (let s := { during .rxCheck 0 0 [] [0x34] with agenda := [.block], hostLoop := some ⟨.turns 0x54, 3, 1, .await⟩ }
     let t := { s with cnt := 7, raw := 0xFFFF, rData := 0x1234, rNew := true, history := [.reset] }
     SameTransaction s t ∧
       ¬ ((s.nextTurn = .readResult ∧ s.hostLoop = none) ∨
         (s.nextTurn = .hostLoop ∧ ∃ l, s.hostLoop = some l ∧ l.phase = .await)) ∧
       ∃ s', step s = .next s' ∧ s'.rCount = 1) ∧
    (let s := { during .idle 0 0 [] [] with
       rNew := true, written := true, agenda := [.hostLoop], hostLoop := some ⟨.turns 0x54, 3, 1, .await⟩ }
     let t := { s with cnt := 7, raw := 0xFFFF }
     SameTransaction s t ∧ (s.resultView = t.resultView ∧ s.rNew = t.rNew ∧ s.written = t.written) ∧
       ∃ s', step s = .next s' ∧ s'.hostLoop = none) :=
  ⟨⟨⟨rfl, rfl, rfl, rfl, rfl, rfl, rfl, rfl, rfl, fun _ => rfl, by decide, by decide, by decide, by decide⟩,
    by decide, _, rfl, rfl⟩,
   ⟨rfl, rfl, rfl, rfl, rfl, rfl, rfl, rfl, rfl, fun _ => rfl, by decide, by decide, by decide, by decide⟩,
    ⟨rfl, rfl, rfl⟩, _, rfl, rfl⟩

/-! ### Witnesses: the whole machine and the host -/

theorem witness_EveryStepKeepsTheInvariant :
    let s := { during .rxLo 0 0 [] [0x34, 0x40] with cnt := 2, agenda := [.block] }
    Inv s ∧ ∃ t, step s = .next t ∧ t.st = .rxHi :=
  ⟨⟨by decide, by decide, by decide, by decide, by decide⟩, _, rfl, rfl⟩

theorem witness_ResetInputLeavesUartStateAlone :
    let s := { during .quiet 0 0 [] [] with agenda := [.block] }
    s.st ≠ .idle ∧ s.nextTurn ≠ .rst ∧ ∃ t, step s = .next t ∧ t.st = .idle := ⟨by decide, by decide, _, rfl, rfl⟩

theorem witness_ResultRegistersChangeOnlyByPublishing :
    let s := { during .rxCheck 0 0 [] [0x34] with agenda := [.block] }
    s.nextTurn ≠ .rst ∧ ∃ t, step s = .next t ∧ t.resultView ≠ s.resultView := ⟨by decide, _, rfl, by decide⟩

theorem witness_HistoryIsAppendedToAndNeverRead :
    ∃ t, step { during .txEnable 0 0 [] [] with agenda := [.block] } = .next t ∧ t.history = [.setDir .transmit] :=
  ⟨_, rfl, rfl⟩

theorem witness_TimingParametersAreNeverRead :
    let p := { Params.nominal with tQuiet := 9, baud := some 2000000, ctrlStyle := .singleLine }
    let s := { during .quiet 0 0 [] [] with agenda := [.block] }
    p.txqCap = s.params.txqCap ∧ p.rxCap = s.params.rxCap ∧ p.extRspBytes = s.params.extRspBytes ∧
    ∃ t, step s = .next t ∧ t.st = .idle := ⟨rfl, rfl, rfl, _, rfl, rfl⟩

theorem witness_HostReadFaultsBeforeTheFirstResult :
    (let s := { State.reset with agenda := [.readResult] }
     s.agenda = .readResult :: [] ∧ s.hostLoop = none ∧ s.written = false) ∧
    (let s := { State.reset with agenda := [.readResult], written := true }
     s.agenda = .readResult :: [] ∧ s.hostLoop = none ∧ s.written = true) ∧
    (let s := { State.reset with
       agenda := [.rst, .readResult], rStatus := .byteCountMismatch, rCount := 3, rNew := true, written := true }
     s.agenda = .rst :: .readResult :: [] ∧ s.hostLoop = none ∧ s.written = true) := by decide

/-- R220, R42: a host that reads after a reset gets the reset values, once a result has been published. -/
theorem test_read_after_reset :
    (next? (Host.Core.run core 2 { State.reset with
      agenda := [.rst, .readResult], rStatus := .byteCountMismatch, rCount := 3, rNew := true, written := true })).map
      (·.hostReading) = some (some ⟨.ok, false, 0xFFFF, 0⟩) := by decide

/-- R220: a host that reads while `R_NEW` is 0 gets the last result's stale values. -/
theorem test_read_stale :
    (next? (step { State.reset with
      agenda := [.readResult], rStatus := .byteCountMismatch, rCount := 3, written := true })).map
      (·.hostReading) = some (some ⟨.byteCountMismatch, false, 0xFFFF, 3⟩) := by decide

/-- A host loop at its attempt number `k` of 3, whose result is there. -/
def awaiting (status : Status) (k : Nat) : State :=
  { State.reset with
    rStatus := status, rNew := true, written := true, agenda := [.hostLoop]
    hostLoop := some ⟨.turns 0x54, 3, k, .await⟩ }

theorem witness_HostLoopRetriesBusErrorsOnly :
    ∀ p ∈ [(Status.ok, 1), (.illegalRequest, 1), (.byteCountMismatch, 3), (.checksumMismatch, 3), (.byteCountMismatch, 2),
        (.checksumMismatch, 1)],
      (awaiting p.1 p.2).agenda = .hostLoop :: [] ∧ (awaiting p.1 p.2).hostLoop = some ⟨.turns 0x54, 3, p.2, .await⟩ ∧
      (awaiting p.1 p.2).reqValid = false ∧ (awaiting p.1 p.2).rNew = true ∧ (awaiting p.1 p.2).rStatus = p.1 := by decide

theorem witness_HostLoopRetriesBusErrorsOnly_start :
    (let s := { State.reset with agenda := [.call (.turns 0x54) 0] }
     s.agenda = .call (.turns 0x54) 0 :: [] ∧ s.hostLoop = none) ∧
    (let s := { State.reset with agenda := [.call (.position 0x54 .res12) 1] }
     s.agenda = .call (.position 0x54 .res12) 1 :: [] ∧ s.hostLoop = none ∧ 1 ≤ 1) := by decide

theorem witness_HostLoopRetriesBusErrorsOnly_request :
    (let s := { during .quiet 0 0 [] [] with agenda := [.hostLoop], hostLoop := some ⟨.turns 0x54, 3, 2, .request⟩ }
     s.agenda = .hostLoop :: [] ∧ s.hostLoop = some ⟨.turns 0x54, 3, 2, .request⟩ ∧ s.st ≠ .idle) ∧
    (let s := { State.reset with agenda := [.hostLoop], hostLoop := some ⟨.position 0x54 .res12, 3, 1, .request⟩ }
     s.agenda = .hostLoop :: [] ∧ s.hostLoop = some ⟨.position 0x54 .res12, 3, 1, .request⟩ ∧ s.st = .idle) := by decide

theorem witness_HostLoopRetriesBusErrorsOnly_wait :
    (let s := { awaiting .ok 1 with reqValid := true }
     s.agenda = .hostLoop :: [] ∧ s.hostLoop = some ⟨.turns 0x54, 3, 1, .await⟩ ∧ s.reqValid = true) ∧
    (let s := { awaiting .ok 1 with rNew := false }
     s.agenda = .hostLoop :: [] ∧ s.hostLoop = some ⟨.turns 0x54, 3, 1, .await⟩ ∧ s.rNew = false) := by decide

theorem witness_HostLoopNeverExceedsItsAttempts :
    LoopInv (awaiting .checksumMismatch 3) ∧
    ∃ t, step (awaiting .checksumMismatch 3) = .next t ∧
      (awaiting .checksumMismatch 3).hostLoop = some ⟨.turns 0x54, 3, 3, .await⟩ ∧ t.hostLoop = none ∧
      t.hostOutcome = some ⟨0xFFFF, false, 3⟩ :=
  ⟨fun l h => by cases h; decide, _, rfl, rfl, rfl, rfl⟩

end Sys2Proof.Tests
end

section
/-! The byte channel's two outside agents, the transceiver control outputs and the state after reset (10_state.md R24,
R36, R37, R42). -/

namespace Sys2Proof.Machine

/-! ### The turns of the UART transmitter and of the line -/

@[simp] theorem takeTurn_uart (s : State) : takeTurn .uart s = .next (uartStep s) := rfl

@[simp] theorem takeTurn_line (b : Byte) (s : State) : takeTurn (.line b) s = .next (lineStep b s) := rfl

/-- Settles O13, from the UART step's two cases: a byte queued, or none. -/
theorem uartTurnClocksOutTheHead : Obligations.UartTurnClocksOutTheHead := by
  unfold Obligations.UartTurnClocksOutTheHead
  intro s
  constructor
  · intro b q htxq
    rw [takeTurn_uart, uartStep_cons htxq, beq_eq_decide]
  · intro htxq
    rw [takeTurn_uart, uartStep_nil htxq]

/-- Settles O14, from the line step's two cases: room in the receive buffer, or none. -/
theorem lineTurnAppendsOrLosesTheByte : Obligations.LineTurnAppendsOrLosesTheByte := by
  unfold Obligations.LineTurnAppendsOrLosesTheByte
  intro s b
  constructor
  · intro hroom
    rw [takeTurn_line, lineStep_room b hroom]
  · intro hfull
    rw [takeTurn_line, lineStep_full b hfull]

/-! ### The transceiver control outputs -/

/-- An asserted line is at the level its polarity names, any other line at the opposite one (R24). -/
theorem lineLevel_eq_ite (activeHigh asserted : Bool) :
    lineLevel activeHigh asserted = if asserted then activeHigh else !activeHigh := by
  cases asserted <;> simp [lineLevel]

theorem controlLevels_pair (pol : CtrlPolarity) (de re : Bool) :
    controlLevels pol (.pair de re) =
      .pair (if de then pol.deActiveHigh else !pol.deActiveHigh) (if re then pol.reActiveHigh else !pol.reActiveHigh) := by
  simp only [controlLevels, lineLevel_eq_ite]

theorem controlLevels_single (pol : CtrlPolarity) (txen : Bool) :
    controlLevels pol (.single txen) = .single (if txen then pol.txenActiveHigh else !pol.txenActiveHigh) := by
  simp only [controlLevels, lineLevel_eq_ite]

theorem controls_of_deRePair {s : State} (h : s.params.ctrlStyle = .deRePair) :
    s.controls = .pair (decide (s.dir = .transmit)) (decide (s.dir = .receive)) := by
  simp only [State.controls, h, controlOutputs]

theorem controls_of_singleLine {s : State} (h : s.params.ctrlStyle = .singleLine) :
    s.controls = .single (decide (s.dir = .transmit)) := by
  simp only [State.controls, h, controlOutputs]

/-- Settles O21, for each control style from the lines the direction asserts and the level of each line. -/
theorem controlOutputsFollowDirection : Obligations.ControlOutputsFollowDirection := by
  unfold Obligations.ControlOutputsFollowDirection
  intro s pol
  constructor
  · intro hstyle
    have hlines := controls_of_deRePair hstyle
    exact ⟨_, _, hlines, decide_eq_true_iff, decide_eq_true_iff, by rw [hlines, controlLevels_pair]⟩
  · intro hstyle
    have hlines := controls_of_singleLine hstyle
    exact ⟨_, hlines, decide_eq_true_iff, by rw [hlines, controlLevels_single]⟩

/-! ### The state after reset -/

/-- Settles O53: each register of the reset state is its listed value by definition, and the reset input's rules say
that the UART's queues stay. -/
theorem resetStateHoldsTheListedValues : Obligations.ResetStateHoldsTheListedValues := by
  unfold Obligations.ResetStateHoldsTheListedValues
  have hqueues (s : State) : s.resetBlock.txq = s.txq ∧ s.resetBlock.rxb = s.rxb :=
    ⟨s.resetBlock_txq, s.resetBlock_rxb⟩
  exact ⟨rfl, rfl, rfl, rfl, rfl, rfl, rfl, rfl, rfl, rfl, rfl, rfl, rfl, hqueues⟩

end Sys2Proof.Machine
end

section
/-! Reading and dropping received bytes (20_memory.md R54, R56). -/

namespace Sys2Proof.Machine

/-- `RxRead` on a state with a byte to read (R54). -/
theorem rxRead_cons {s : State} {b : Byte} {rest : List Byte} (h : s.rxb = b :: rest) :
    s.rxRead = some (b, { s with rxb := rest, history := s.history ++ [.rxRead b] }) := by
  simp [State.rxRead, h, State.record]

/-- `n` calls of `RxRead` in a row with the values thrown away, or nothing where one of them has no byte to read: the
fold R56's statement is about. -/
def State.rxReads (n : Nat) (s : State) : Option State :=
  Nat.rec (motive := fun _ => Option State) (some s) (fun _ acc => acc.bind fun u => u.rxRead.map Prod.snd) n

@[simp] theorem rxReads_zero (s : State) : s.rxReads 0 = some s := rfl

theorem rxReads_succ (n : Nat) (s : State) :
    s.rxReads (n + 1) = (s.rxReads n).bind fun u => u.rxRead.map Prod.snd := rfl

/-- Reading `n` bytes that are there takes the first `n` bytes of `RXB`, records each of them in order, and changes
nothing else. -/
theorem rxReads_of_le {n : Nat} {s : State} (h : n ≤ s.rxb.length) :
    s.rxReads n =
      some { s with rxb := s.rxb.drop n, history := s.history ++ (s.rxb.take n).map .rxRead } := by
  induction n with
  | zero => simp
  | succ n ih =>
    have hlt : n < s.rxb.length := h
    have hhead : s.rxb.drop n = s.rxb[n] :: s.rxb.drop (n + 1) := List.drop_eq_getElem_cons hlt
    have htaken : s.rxb.take (n + 1) = s.rxb.take n ++ [s.rxb[n]] := List.take_succ_eq_append_getElem hlt
    rw [rxReads_succ, ih hlt.le, Option.bind_some, rxRead_cons hhead, htaken]
    simp only [Option.map_some, List.map_append, List.map_singleton, List.append_assoc]

/-- Settles O15: the drop's effect is its definition, and the `n` reads leave the same `RXB` by `rxReads_of_le`. -/
theorem rxDropIsThatManyReads : Obligations.RxDropIsThatManyReads := by
  unfold Obligations.RxDropIsThatManyReads
  intro n s hn
  exact ⟨rfl, _, rxReads_of_le hn, (s.rxDrop_rxb n).symm⟩

end Sys2Proof.Machine
end

section
/-! Positions and turn counts as arithmetic on the payload (41_decode.md R125 to R127). -/

namespace Sys2Proof.Machine

/-- The mask of R125 keeps the payload: it is a remainder by `2^14`. -/
theorem toNat_and_payloadMask (raw : Word) : (raw &&& 0x3FFF#16).toNat = raw.toNat % 16384 :=
  (BitVec.toNat_and ..).trans (Nat.and_two_pow_sub_one_eq_mod raw.toNat 14)

theorem decodePosition_res14_toNat (raw : Word) : (decodePosition raw .res14).toNat = raw.toNat % 16384 :=
  toNat_and_payloadMask raw

theorem decodePosition_res12_toNat (raw : Word) :
    (decodePosition raw .res12).toNat = raw.toNat % 16384 / 4 := by
  rw [decodePosition, BitVec.toNat_ushiftRight, toNat_and_payloadMask, Nat.shiftRight_eq_div_pow]

/-- Settles O4, from the mask as a remainder by `2^14` and the shift as a quotient by 4. -/
theorem positionIsPayloadOrItsQuarter : Obligations.PositionIsPayloadOrItsQuarter := by
  unfold Obligations.PositionIsPayloadOrItsQuarter
  exact fun raw => ⟨decodePosition_res14_toNat raw, decodePosition_res12_toNat raw⟩

/-- The left shift of R127 moves the payload's sign, bit 13, to the top of the word. -/
theorem msb_shiftLeft_two_eq_payload_msb (raw : Word) : (raw <<< 2).msb = (raw.extractLsb' 0 14).msb := by
  simp [BitVec.msb_eq_getLsbD_last]

/-- The two shifts of R127 are a sign extension: below bit 14 the right shift brings back the bit that the left shift
moved, from there on it copies the payload's sign. -/
theorem decodeTurns_eq_signExtend (raw : Word) :
    decodeTurns raw = (raw.extractLsb' 0 14).signExtend 16 := by
  ext i hi
  rw [decodeTurns, BitVec.getElem_sshiftRight, BitVec.getElem_signExtend]
  by_cases hlow : i < 14
  · have hin : 2 + i < 16 := by omega
    have hshifted : ¬ 2 + i < 2 := by omega
    rw [dif_pos hin, dif_pos hlow, BitVec.getElem_shiftLeft, BitVec.getElem_extractLsb']
    simp [hshifted, BitVec.getLsbD_eq_getElem hi]
  · have hout : ¬ 2 + i < 16 := by omega
    rw [dif_neg hout, dif_neg hlow, msb_shiftLeft_two_eq_payload_msb]

theorem decodeTurns_toInt (raw : Word) : (decodeTurns raw).toInt = (raw.extractLsb' 0 14).toInt := by
  rw [decodeTurns_eq_signExtend, BitVec.toInt_signExtend_of_le (by decide)]

/-- Settles O5: the shifts are a sign extension, which keeps the payload's integer, and 14 bits bound that integer. -/
theorem turnsAreTheSignExtendedPayload : Obligations.TurnsAreTheSignExtendedPayload := by
  unfold Obligations.TurnsAreTheSignExtendedPayload
  intro raw
  have hvalue := decodeTurns_toInt raw
  have hlow : -8192 ≤ (raw.extractLsb' 0 14).toInt := BitVec.le_toInt _
  have hhigh : (raw.extractLsb' 0 14).toInt < 8192 := BitVec.toInt_lt
  exact ⟨decodeTurns_eq_signExtend raw, hvalue, by omega, by omega⟩

end Sys2Proof.Machine
end

section
/-! The framer's states for the command in flight (42_turnaround.md R141 to R143, 43_transaction.md R163 to R189). -/

namespace Sys2Proof.Machine

/-! ### The step of the command in flight -/

/-- The step of the command in flight is the framer's: it is what the block's turn runs outside IDLE. -/
theorem exec_eq_framerStep {i : Instr} {s : State} (h : s.inFlight = some i) : exec i s = framerStep s := by
  obtain ⟨hbusy, -, -⟩ := inFlight_iff.1 h
  have hturn : blockTurn s = exec i s := by simp only [blockTurn, hbusy, if_false, h]
  rw [← hturn, blockTurn_busy hbusy]

/-- A move of the framer is the step of the command in flight. -/
theorem exec_of_framerMove {i : Instr} {s t : State} (h : s.inFlight = some i) (m : FramerMove s t) :
    exec i s = .next t := by
  rw [exec_eq_framerStep h, m.framerStep_eq]

/-- A command stays in flight while its latch stays and the FSM is outside IDLE. -/
theorem inFlight_of_latch_eq {i : Instr} {s t : State} (h : s.inFlight = some i) (hlatch : t.latch = s.latch)
    (hbusy : t.st ≠ .idle) : t.inFlight = some i := by
  obtain ⟨-, hlegal, hdecode⟩ := inFlight_iff.1 h
  rw [← hlatch] at hlegal hdecode
  exact inFlight_iff.2 ⟨hbusy, hlegal, hdecode⟩

/-- The latch of a command in flight holds that command's base address and modifier. -/
theorem latch_of_inFlight {i : Instr} {s : State} (h : s.inFlight = some i) :
    s.latch.addr = i.base ∧ s.latch.cmd = i.modifier := by
  rcases inFlight_cases h with ⟨rfl, hc⟩ | ⟨rfl, hc⟩ | ⟨rfl, hc, -⟩ | ⟨rfl, hc, -⟩
  all_goals exact ⟨rfl, hc⟩

/-! ### Turnaround -/

/-- Settles O18: TX_ENABLE is one move of the framer. -/
theorem enterTransmitFromTxEnable : Obligations.EnterTransmitFromTxEnable := by
  unfold Obligations.EnterTransmitFromTxEnable
  exact fun i s hf hs => exec_of_framerMove hf (.txEnable hs)

/-- Settles O19: RX_ENABLE is one move of the framer. -/
theorem enterReceiveFromRxEnable : Obligations.EnterReceiveFromRxEnable := by
  unfold Obligations.EnterReceiveFromRxEnable
  exact fun i s hf hs => exec_of_framerMove hf (.rxEnable hs)

/-- Settles O20, from the framer's two moves in TX_DRAIN: the queue empty, or not. -/
theorem txDrainWaitsForTransmissionComplete : Obligations.TxDrainWaitsForTransmissionComplete := by
  unfold Obligations.TxDrainWaitsForTransmissionComplete
  intro i s hf hs
  exact ⟨fun hempty => exec_of_framerMove hf (.drained hs hempty),
    fun hbusy => exec_of_framerMove hf (.draining hs hbusy)⟩

/-! ### Taking a request in IDLE -/

@[simp] theorem takeTurn_block (s : State) : takeTurn .block s = blockTurn s := rfl

/-- A rejection in IDLE leaves the FSM where it is. -/
theorem takeRequest_illegal_of_idle {r : Request} {s : State} (hs : s.st = .idle) (h : legal r = false) :
    takeRequest r s = { s with
      reqValid := false, rStatus := .illegalRequest, rOk := false, rData := failureData, rCount := 0
      rNew := true, written := true
      history := s.history ++ [.reject r, .publish .illegalRequest failureData 0] } := by
  rw [takeRequest_illegal h, ← hs]

/-- Settles O25, from the block's turn in IDLE: a request taken, legal or not, or none presented. -/
theorem idleTakesAPresentedRequest : Obligations.IdleTakesAPresentedRequest := by
  unfold Obligations.IdleTakesAPresentedRequest
  intro s hs
  refine ⟨fun hv hlegal => ⟨false, ?_⟩, fun hv hillegal => ⟨false, ?_⟩, fun hv => ?_⟩
  · rw [takeTurn_block, blockTurn_take hs hv, takeRequest_legal hlegal]
  · rw [takeTurn_block, blockTurn_take hs hv, takeRequest_illegal_of_idle hs hillegal]
    rfl
  · rw [takeTurn_block, blockTurn_rest hs hv]

/-- The two low bits of an address are its remainder by 4. -/
theorem lowBits_eq_zero_iff (a : Byte) : a.extractLsb' 0 2 = 0#2 ↔ a.toNat % 4 = 0 := by
  rw [← BitVec.toNat_inj, BitVec.extractLsb'_toNat]
  rfl

/-- The requests R184 to R186 name are not legal. -/
theorem legal_encodeRequest_eq_false {i : Instr} (lines : Request)
    (h : (∃ base, i = .reservedModifier base) ∨
      (∃ base sub, i = .undefinedSubCommand base sub ∧ sub ≠ 0x5E#8 ∧ sub ≠ 0x75#8) ∨ i.base.toNat % 4 ≠ 0) :
    legal (encodeRequest i lines) = false := by
  rw [← Bool.not_eq_true, legal_iff]
  rintro ⟨haligned, hmodifier, hsub⟩
  rcases h with ⟨base, rfl⟩ | ⟨base, sub, rfl, hzero, hreset⟩ | hmisaligned
  · exact hmodifier rfl
  · exact (hsub rfl).elim hzero hreset
  · exact hmisaligned ((lowBits_eq_zero_iff _).1 haligned)

/-- Settles O37: the encoded request is not legal, and a rejection is what IDLE then does. -/
theorem illegalRequestsAreRejectedInIdle : Obligations.IllegalRequestsAreRejectedInIdle := by
  unfold Obligations.IllegalRequestsAreRejectedInIdle
  intro i s hs hi
  refine ⟨false, ?_⟩
  rw [exec_idle hs, takeRequest_illegal_of_idle hs (legal_encodeRequest_eq_false s.req hi)]
  rfl

/-! ### Flushes, the host byte and the response word -/

/-- Settles O26: each flush is one move of the framer. -/
theorem flushesDropTheBytesPresent : Obligations.FlushesDropTheBytesPresent := by
  unfold Obligations.FlushesDropTheBytesPresent
  intro i s hf
  exact ⟨fun hs => exec_of_framerMove hf (.preFlush hs), fun hs => exec_of_framerMove hf (.postFlush hs)⟩

/-- On an aligned base the modifier's bits are free, so that setting them is adding (R81, R82). -/
theorem hostByteOf_toNat {base : Byte} (haligned : base.toNat % 4 = 0) (m : BitVec 2) :
    (hostByteOf base m).toNat = base.toNat + m.toNat := by
  have hbase : base.toNat = 2 ^ 2 * (base.toNat / 4) := by omega
  rw [hostByteOf, BitVec.toNat_or, BitVec.toNat_setWidth_of_le (by decide), hbase,
    ← Nat.two_pow_add_eq_or_of_lt m.isLt]

/-- The host byte of the command in flight is its base address plus its modifier (R162). -/
theorem hostByte_toNat_of_inFlight {i : Instr} {s : State} (h : s.inFlight = some i) :
    (hostByte s.latch).toNat = i.base.toNat + i.modifier.toNat := by
  obtain ⟨haddr, hcmd⟩ := latch_of_inFlight h
  obtain ⟨-, hlegal, -⟩ := inFlight_iff.1 h
  obtain ⟨haligned, -, -⟩ := (legal_iff _).1 hlegal
  rw [← haddr, ← hcmd]
  exact hostByteOf_toNat ((lowBits_eq_zero_iff _).1 haligned) _

/-- Settles O28, from the framer's moves in TX_BYTE0: room for the byte of an extended or a read command, or none. -/
theorem txByte0WritesTheHostByte : Obligations.TxByte0WritesTheHostByte := by
  unfold Obligations.TxByte0WritesTheHostByte
  intro i s hf hs
  obtain ⟨-, hcmd⟩ := latch_of_inFlight hf
  refine ⟨fun hroom => ⟨hostByte s.latch, hostByte_toNat_of_inFlight hf, ?_⟩,
    fun hfull => exec_of_framerMove hf (.held (.inl hs) hfull)⟩
  rw [← hcmd]
  by_cases hext : s.latch.cmd = 0b10#2
  · rw [if_pos hext]
    exact exec_of_framerMove hf (.txByte0Extended hs hext hroom)
  · rw [if_neg hext]
    exact exec_of_framerMove hf (.txByte0Read hs hext hroom)

/-- Settles O33: each read is one move of the framer, the command stays in flight between the two, and the second keeps
the low byte that the first put down. -/
theorem responseWordIsAssembledLowByteFirst : Obligations.ResponseWordIsAssembledLowByteFirst := by
  unfold Obligations.ResponseWordIsAssembledLowByteFirst
  intro i s b rest hf hb
  refine ⟨fun hs => exec_of_framerMove hf (.rxLo b rest hs hb), fun hs => exec_of_framerMove hf (.rxHi b rest hs hb),
    fun hs hi rest' hrest => ?_⟩
  refine ⟨_, _, exec_of_framerMove hf (.rxLo b rest hs hb),
    exec_of_framerMove (inFlight_of_latch_eq hf rfl (by simp)) (.rxHi hi rest' rfl hrest), ?_⟩
  exact congrArg (hi ++ ·) BitVec.extractLsb'_append_eq_right

/-! ### No abort and no overlap -/

/-- What a step inside a transaction leaves to it: the latch, the number of requests taken, and the way back to IDLE
through QUIET only (R189). -/
structure KeepsTransaction (s t : State) : Prop where
  latch : t.latch = s.latch
  requests : requestsOf t.history = requestsOf s.history
  ending : t.st = .idle → s.st = .quiet

/-- The transaction is kept where the latch and the FSM stay and no request is added to the history. -/
theorem KeepsTransaction.of_st_eq {s t : State} (hbusy : s.st ≠ .idle) (hst : t.st = s.st) (hlatch : t.latch = s.latch)
    (hrequests : requestsOf t.history = requestsOf s.history) : KeepsTransaction s t :=
  ⟨hlatch, hrequests, fun hidle => absurd (hst ▸ hidle) hbusy⟩

@[simp] theorem requestsOf_append (h k : List Event) : requestsOf (h ++ k) = requestsOf h + requestsOf k :=
  List.countP_append

theorem FramerMove.keepsTransaction {s t : State} (m : FramerMove s t) (hbusy : s.st ≠ .idle) :
    KeepsTransaction s t := by
  constructor
  case latch => cases m <;> rfl
  case requests => cases m <;> simp [requestsOf]
  case ending =>
    intro hidle
    cases m
    case quiet hs => exact hs
    case idle | held | draining => exact absurd hidle hbusy
    all_goals cases hidle

theorem uartStep_keepsTransaction {s : State} (hbusy : s.st ≠ .idle) : KeepsTransaction s (uartStep s) := by
  cases hq : s.txq with
  | nil => rw [uartStep_nil hq]; exact .of_st_eq hbusy rfl rfl rfl
  | cons b q => rw [uartStep_cons hq]; exact .of_st_eq hbusy rfl rfl (by simp [requestsOf])

theorem lineStep_keepsTransaction {s : State} (b : Byte) (hbusy : s.st ≠ .idle) : KeepsTransaction s (lineStep b s) := by
  by_cases hroom : s.rxb.length < s.params.rxCap
  · rw [lineStep_room b hroom]; exact .of_st_eq hbusy rfl rfl (by simp [requestsOf])
  · rw [lineStep_full b (Nat.not_lt.1 hroom)]; exact .of_st_eq hbusy rfl rfl (by simp [requestsOf])

theorem HostMove.keepsTransaction {s t : State} (m : HostMove s t) (hbusy : s.st ≠ .idle) : KeepsTransaction s t := by
  cases m <;> exact .of_st_eq hbusy rfl rfl rfl

/-- A turn other than reset keeps the running transaction. -/
theorem TurnMove.keepsTransaction {turn : Turn} {s t : State} (m : TurnMove s turn t) (hbusy : s.st ≠ .idle)
    (hrst : turn ≠ .rst) : KeepsTransaction s t := by
  cases m with
  | take hidle => exact absurd hidle hbusy
  | rest hidle => exact absurd hidle hbusy
  | framer _ m => exact m.keepsTransaction hbusy
  | uart => exact uartStep_keepsTransaction hbusy
  | line b => exact lineStep_keepsTransaction b hbusy
  | host m => exact m.keepsTransaction hbusy
  | rst => exact absurd rfl hrst

/-! What the request port holds is the host's to change: outside IDLE the block, the UART and the line leave it. -/

theorem FramerMove.port_eq {s t : State} (m : FramerMove s t) : t.reqValid = s.reqValid ∧ t.req = s.req := by
  cases m <;> exact ⟨rfl, rfl⟩

theorem uartStep_port_eq (s : State) : (uartStep s).reqValid = s.reqValid ∧ (uartStep s).req = s.req := by
  cases hq : s.txq with
  | nil => rw [uartStep_nil hq]; exact ⟨rfl, rfl⟩
  | cons b q => rw [uartStep_cons hq]; exact ⟨rfl, rfl⟩

theorem lineStep_port_eq (b : Byte) (s : State) : (lineStep b s).reqValid = s.reqValid ∧ (lineStep b s).req = s.req := by
  by_cases hroom : s.rxb.length < s.params.rxCap
  · rw [lineStep_room b hroom]; exact ⟨rfl, rfl⟩
  · rw [lineStep_full b (Nat.not_lt.1 hroom)]; exact ⟨rfl, rfl⟩

theorem TurnMove.port_eq {turn : Turn} {s t : State} (m : TurnMove s turn t) (hbusy : s.st ≠ .idle)
    (hturn : turn = .block ∨ turn = .uart ∨ ∃ b, turn = .line b) : t.reqValid = s.reqValid ∧ t.req = s.req := by
  cases m with
  | take hidle => exact absurd hidle hbusy
  | rest hidle => exact absurd hidle hbusy
  | framer _ m => exact m.port_eq
  | uart => exact uartStep_port_eq s
  | line b => exact lineStep_port_eq b s
  | host _ hserves =>
    rcases hturn with rfl | rfl | ⟨b, rfl⟩
    all_goals simp [Turn.serves] at hserves
  | rst => simp at hturn

/-- Settles O39: outside IDLE `req_ready` is down, and of the moves of a turn only the host's touch the port and only a
reset's the transaction. -/
theorem noAbortAndNoOverlap : Obligations.NoAbortAndNoOverlap := by
  unfold Obligations.NoAbortAndNoOverlap
  intro s t hbusy hrst hstep
  have m : TurnMove s.popTurn s.nextTurn t := step_next hstep
  obtain ⟨hlatch, hrequests, hending⟩ := m.keepsTransaction hbusy hrst
  exact ⟨decide_eq_false hbusy, hlatch, hrequests, hending, m.port_eq hbusy⟩

end Sys2Proof.Machine
end

section
/-! The reset input (70_reset_and_hazards.md R240). -/

namespace Sys2Proof.Machine

@[simp] theorem takeTurn_rst (s : State) : takeTurn .rst s = .next s.resetBlock := rfl

/-- The reset input writes the block's registers and the history and nothing else (R240). -/
theorem resetBlock_eq (s : State) : s.resetBlock = { s with
    st := .idle, dir := .receive, latch := ⟨0#8, 0#2, 0#8, false⟩, cnt := 0#8, raw := 0, rStatus := .ok
    rOk := false, rData := 0xFFFF#16, rCount := 0#8, rNew := false, history := s.history ++ [.reset] } := rfl

/-- Settles O54: the reset turn is the reset of the block, whatever the state, and every other turn keeps the running
transaction, which goes back to IDLE from QUIET only. -/
theorem resetInputLeavesUartStateAlone : Obligations.ResetInputLeavesUartStateAlone := by
  unfold Obligations.ResetInputLeavesUartStateAlone
  constructor
  · intro s
    refine ⟨s.written, s.hostLoop, ?_⟩
    rw [takeTurn_rst, resetBlock_eq]
  · intro s t hbusy hrst hstep hidle
    have m : TurnMove s.popTurn s.nextTurn t := step_next hstep
    exact (m.keepsTransaction hbusy hrst).ending hidle

end Sys2Proof.Machine
end

section
/-! The moves of a turn with the state after each written out, and what the host's moves leave to the block. -/

namespace Sys2Proof.Machine

/-- The moves of a turn, as `TurnMove` lists them, with the taking of a request and the steps of the UART and of the
line split into their cases. `still` is a turn that changes nothing: the block without a request, the UART
without a byte. -/
inductive TurnCase (s : State) : Turn → State → Prop
  | accepted (h : s.st = .idle) (hv : s.reqValid = true) (hl : legal s.req = true) : TurnCase s .block { s with
      st := .preFlush, latch := s.req, rNew := false, reqValid := false, history := s.history ++ [.accept s.req] }
  | rejected (h : s.st = .idle) (hv : s.reqValid = true) (hl : legal s.req = false) : TurnCase s .block { s with
      st := .idle, reqValid := false, rStatus := .illegalRequest, rOk := false, rData := failureData, rCount := 0
      rNew := true, written := true
      history := s.history ++ [.reject s.req, .publish .illegalRequest failureData 0] }
  | framer {t : State} (h : s.st ≠ .idle) (m : FramerMove s t) : TurnCase s .block t
  | clocked (b : Byte) (q : List Byte) (hq : s.txq = b :: q) : TurnCase s .uart { s with
      txq := q, history := s.history ++ [.wire b (decide (s.dir = .transmit))] }
  | arrived (b : Byte) (room : s.rxb.length < s.params.rxCap) : TurnCase s (.line b) { s with
      rxb := s.rxb ++ [b], history := s.history ++ [.rxArrive b] }
  | overrun (b : Byte) (full : s.params.rxCap ≤ s.rxb.length) : TurnCase s (.line b) { s with
      history := s.history ++ [.rxOverrun b] }
  | still {turn : Turn} (h : turn = .block ∧ s.st = .idle ∨ turn = .uart ∧ s.txq = []) : TurnCase s turn s
  | host {turn : Turn} {t : State} (m : HostMove s t) (hserves : turn.serves = none ∨ turn = .hostLoop) :
      TurnCase s turn t
  | reset : TurnCase s .rst s.resetBlock

theorem TurnMove.turnCase {turn : Turn} {s t : State} (m : TurnMove s turn t) : TurnCase s turn t := by
  cases m with
  | take h hv =>
    cases hl : legal s.req
    · rw [takeRequest_illegal hl]; exact .rejected h hv hl
    · rw [takeRequest_legal hl]; exact .accepted h hv hl
  | rest h => exact .still (.inl ⟨rfl, h⟩)
  | framer h m => exact .framer h m
  | uart =>
    cases hq : s.txq with
    | nil => rw [uartStep_nil hq]; exact .still (.inr ⟨rfl, hq⟩)
    | cons b q => rw [uartStep_cons hq]; exact .clocked b q hq
  | line b =>
    by_cases hroom : s.rxb.length < s.params.rxCap
    · rw [lineStep_room b hroom]; exact .arrived b hroom
    · rw [lineStep_full b (Nat.not_lt.1 hroom)]; exact .overrun b (Nat.not_lt.1 hroom)
  | host m hserves => exact .host m hserves
  | rst => exact .reset

/-- A step is one of the cases of the next turn. -/
theorem step_turnCase {s t : State} (h : step s = .next t) : TurnCase s.popTurn s.nextTurn t := (step_next h).turnCase

/-- What two states agree on if only the host has moved between them: all that is neither the request port's, nor the
host's own, nor the agenda. -/
structure SameBlock (s t : State) : Prop where
  st : t.st = s.st
  dir : t.dir = s.dir
  latch : t.latch = s.latch
  cnt : t.cnt = s.cnt
  rStatus : t.rStatus = s.rStatus
  rOk : t.rOk = s.rOk
  rData : t.rData = s.rData
  rCount : t.rCount = s.rCount
  rNew : t.rNew = s.rNew
  written : t.written = s.written
  txq : t.txq = s.txq
  rxb : t.rxb = s.rxb
  history : t.history = s.history
  params : t.params = s.params

theorem HostMove.sameBlock {s t : State} (m : HostMove s t) : SameBlock s t := by
  cases m <;> exact ⟨rfl, rfl, rfl, rfl, rfl, rfl, rfl, rfl, rfl, rfl, rfl, rfl, rfl, rfl⟩

/-- A host move keeps what is said of the block alone. -/
theorem SameBlock.resultView {s t : State} (h : SameBlock s t) : t.resultView = s.resultView := by
  simp [State.resultView, h.rStatus, h.rOk, h.rData, h.rCount]

end Sys2Proof.Machine
end

section
/-! The order of bytes on both sides of the UART (20_memory.md R64). -/

namespace Sys2Proof.Machine

@[simp] theorem wiresOf_append (h k : List Event) : wiresOf (h ++ k) = wiresOf h ++ wiresOf k := List.filterMap_append

@[simp] theorem writesOf_append (h k : List Event) : writesOf (h ++ k) = writesOf h ++ writesOf k :=
  List.filterMap_append

@[simp] theorem arrivalsOf_append (h k : List Event) : arrivalsOf (h ++ k) = arrivalsOf h ++ arrivalsOf k :=
  List.filterMap_append

@[simp] theorem takenOf_append (h k : List Event) : takenOf (h ++ k) = takenOf h + takenOf k := by
  simp [takenOf]

/-! ### The transmit side -/

/-- A step's events account for `TXQ`: what it clocks out comes off the front, what it writes goes to the back. -/
def KeepsWriteOrder (s t : State) : Prop :=
  ∃ es, t.history = s.history ++ es ∧ wiresOf es ++ t.txq = s.txq ++ writesOf es

/-- A step that leaves `TXQ` alone and records neither a write nor a wire byte keeps the order. -/
theorem KeepsWriteOrder.of_silent {s t : State} (es : List Event) (hh : t.history = s.history ++ es)
    (hq : t.txq = s.txq) (hwires : wiresOf es = []) (hwrites : writesOf es = []) : KeepsWriteOrder s t :=
  ⟨es, hh, by simp [hq, hwires, hwrites]⟩

theorem KeepsWriteOrder.of_history_eq {s t : State} (hh : t.history = s.history) (hq : t.txq = s.txq) :
    KeepsWriteOrder s t :=
  .of_silent [] (by simp [hh]) hq rfl rfl

theorem FramerMove.keepsWriteOrder {s t : State} (m : FramerMove s t) : KeepsWriteOrder s t := by
  cases m
  case txByte0Read | txByte0Extended | txByte1 => exact ⟨[.txWrite _], rfl, rfl⟩
  case idle | held | drained | draining | toRead => exact .of_history_eq rfl rfl
  all_goals exact .of_silent [_] rfl rfl rfl rfl

theorem TurnCase.keepsWriteOrder {turn : Turn} {s t : State} (m : TurnCase s turn t) : KeepsWriteOrder s t := by
  cases m with
  | framer _ m => exact m.keepsWriteOrder
  | clocked b q hq => exact ⟨[.wire b _], rfl, by simp [wiresOf, writesOf, hq]⟩
  | rejected => exact .of_silent [_, _] rfl rfl rfl rfl
  | still => exact .of_history_eq rfl rfl
  | host m => exact .of_history_eq m.sameBlock.history m.sameBlock.txq
  | accepted | arrived | overrun | reset => exact .of_silent [_] rfl rfl rfl rfl

/-- Settles O16: the events of one step account for `TXQ`, so the bytes in front stay the same. -/
theorem bytesReachTheWireInWriteOrder : Obligations.BytesReachTheWireInWriteOrder := by
  unfold Obligations.BytesReachTheWireInWriteOrder
  intro s t before hstep horder
  obtain ⟨es, hh, hes⟩ : KeepsWriteOrder s.popTurn t := (step_turnCase hstep).keepsWriteOrder
  calc wiresOf t.history ++ t.txq
      = wiresOf s.history ++ (wiresOf es ++ t.txq) := by simp [hh]
    _ = (wiresOf s.history ++ s.txq) ++ writesOf es := by simp [hes]
    _ = before ++ writesOf t.history := by simp [horder, hh]

/-! ### The receive side -/

/-- A step's events account for `RXB`: what arrives goes to the back, and what the step takes, which is there to be
taken, comes off the front. -/
def KeepsArrivalOrder (s t : State) : Prop :=
  ∃ es, t.history = s.history ++ es ∧ takenOf es ≤ (s.rxb ++ arrivalsOf es).length ∧
    t.rxb = (s.rxb ++ arrivalsOf es).drop (takenOf es)

/-- A step that leaves `RXB` alone and records neither an arrival nor a byte taken keeps the order. -/
theorem KeepsArrivalOrder.of_silent {s t : State} (es : List Event) (hh : t.history = s.history ++ es)
    (hb : t.rxb = s.rxb) (harrivals : arrivalsOf es = []) (htaken : takenOf es = 0) : KeepsArrivalOrder s t :=
  ⟨es, hh, by simp [htaken], by simp [hb, harrivals, htaken]⟩

theorem KeepsArrivalOrder.of_history_eq {s t : State} (hh : t.history = s.history) (hb : t.rxb = s.rxb) :
    KeepsArrivalOrder s t :=
  .of_silent [] (by simp [hh]) hb rfl rfl

theorem FramerMove.keepsArrivalOrder {s t : State} (m : FramerMove s t) : KeepsArrivalOrder s t := by
  cases m
  case preFlush | postFlush =>
    exact ⟨[.rxDrop _], rfl, by simp [takenOf, Event.taken], by simp [takenOf, Event.taken, arrivalsOf]⟩
  case rxLo hb | rxHi hb =>
    exact ⟨[.rxRead _], rfl, by simp [takenOf, Event.taken, hb], by simp [takenOf, Event.taken, arrivalsOf, hb]⟩
  case idle | held | drained | draining | toRead => exact .of_history_eq rfl rfl
  all_goals exact .of_silent [_] rfl rfl rfl rfl

theorem TurnCase.keepsArrivalOrder {turn : Turn} {s t : State} (m : TurnCase s turn t) : KeepsArrivalOrder s t := by
  cases m with
  | framer _ m => exact m.keepsArrivalOrder
  | arrived b =>
    exact ⟨[.rxArrive b], rfl, by simp [takenOf, Event.taken], by simp [takenOf, Event.taken, arrivalsOf]⟩
  | rejected => exact .of_silent [_, _] rfl rfl rfl rfl
  | still => exact .of_history_eq rfl rfl
  | host m => exact .of_history_eq m.sameBlock.history m.sameBlock.rxb
  | accepted | clocked | overrun | reset => exact .of_silent [_] rfl rfl rfl rfl

/-- Settles O17: the events of one step account for `RXB`, and taking in two goes is taking the sum. -/
theorem bytesLeaveTheReceiveBufferInArrivalOrder : Obligations.BytesLeaveTheReceiveBufferInArrivalOrder := by
  unfold Obligations.BytesLeaveTheReceiveBufferInArrivalOrder
  intro s t before hstep hcount horder
  obtain ⟨es, hh, hle, hrxb⟩ : KeepsArrivalOrder s.popTurn t := (step_turnCase hstep).keepsArrivalOrder
  simp only [State.popTurn_history, State.popTurn_rxb] at hh hle hrxb
  have hsplit :
      (before ++ arrivalsOf s.history ++ arrivalsOf es).drop (takenOf s.history) = s.rxb ++ arrivalsOf es := by
    rw [horder, List.drop_append_of_le_length hcount]
  rw [hh, arrivalsOf_append, takenOf_append, ← List.append_assoc]
  constructor
  · rw [horder] at hle
    simp only [List.length_append, List.length_drop] at hle hcount ⊢
    omega
  · rw [← List.drop_drop, hsplit, hrxb]

end Sys2Proof.Machine
end

section
/-! What every step keeps of the machine: its direction, its latch, its sequence, its capacities and its result
registers (10_state.md section 2, 42_turnaround.md R145, 20_memory.md section 2). -/

namespace Sys2Proof.Machine

/-! ### Direction -/

theorem FramerMove.directionInv {s t : State} (m : FramerMove s t) (h : DirectionInv s) : DirectionInv t := by
  cases m
  case idle | held | draining => exact h
  case txEnable => exact ⟨fun _ => rfl, fun _ => rfl⟩
  case rxEnable => exact ⟨nofun, nofun⟩
  all_goals simp_all [DirectionInv, Fsm.transmitting]

theorem TurnCase.directionInv {turn : Turn} {s t : State} (m : TurnCase s turn t) (h : DirectionInv s) :
    DirectionInv t := by
  cases m with
  | framer _ m => exact m.directionInv h
  | accepted hs | rejected hs => simp_all [DirectionInv, Fsm.transmitting]
  | host m => simpa [DirectionInv, m.sameBlock.dir, m.sameBlock.st] using h
  | reset => exact ⟨nofun, nofun⟩
  | clocked | arrived | overrun | still => exact h

/-- Settles O22: only TX_ENABLE, RX_ENABLE and a reset write `DIR`, and they enter and leave the transmitting states. -/
theorem everyStepKeepsTheDirectionInvariant : Obligations.EveryStepKeepsTheDirectionInvariant := by
  unfold Obligations.EveryStepKeepsTheDirectionInvariant
  exact fun s t h hstep => (step_turnCase hstep).directionInv h

/-! ### Latch, sequence, capacities and result registers -/

theorem FramerMove.latchInv {s t : State} (m : FramerMove s t) (h : LatchInv s) : LatchInv t := by
  cases m <;> exact h

theorem TurnCase.latchInv {turn : Turn} {s t : State} (m : TurnCase s turn t) (h : LatchInv s) : LatchInv t := by
  cases m with
  | framer _ m => exact m.latchInv h
  | accepted _ _ hl => exact hl
  | host m => simpa [LatchInv, m.sameBlock.latch] using h
  | reset => exact rfl
  | rejected | clocked | arrived | overrun | still => exact h

theorem FramerMove.sequenceInv {s t : State} (m : FramerMove s t) (h : SequenceInv s) : SequenceInv t := by
  have ⟨_, hlo, hhi, _⟩ := h
  cases m
  case toRead hc hn =>
    have hread : s.latch.cmd ≠ 0b10#2 := by rcases hc with hc | hc <;> simp [hc]
    simp [SequenceInv, hread, hn]
  case rxLo hs hb =>
    obtain ⟨hread, hcnt, hlen⟩ := hlo hs
    simp [hb] at hlen
    simp [SequenceInv, hread, hcnt, hlen]
  case rxHi hs _ =>
    obtain ⟨hread, hcnt, -⟩ := hhi hs
    simp [SequenceInv, hread, hcnt]
  case txByte0Extended hc _ => simp [SequenceInv, hc]
  case idle | held | draining => exact h
  all_goals simp [SequenceInv]

theorem TurnCase.sequenceInv {turn : Turn} {s t : State} (m : TurnCase s turn t) (h : SequenceInv s) :
    SequenceInv t := by
  have ⟨hbyte1, hlo, hhi, hverify⟩ := h
  cases m with
  | framer _ m => exact m.sequenceInv h
  | arrived b =>
    have hgrown : s.rxb.length ≤ (s.rxb ++ [b]).length := by simp
    exact ⟨hbyte1, fun hs => ⟨(hlo hs).1, (hlo hs).2.1, (hlo hs).2.2.trans hgrown⟩,
      fun hs => ⟨(hhi hs).1, (hhi hs).2.1, (hhi hs).2.2.trans hgrown⟩, hverify⟩
  | host m =>
    have hb := m.sameBlock
    simpa [SequenceInv, hb.st, hb.latch, hb.cnt, hb.rxb] using h
  | accepted | rejected | reset => simp [SequenceInv]
  | clocked | overrun | still => exact h

theorem FramerMove.capacityInv {s t : State} (m : FramerMove s t) (h : CapacityInv s) : CapacityInv t := by
  have ⟨hcap, htx, hrx⟩ := h
  cases m
  case preFlush | postFlush => exact ⟨hcap, htx, Nat.zero_le _⟩
  case txByte0Read room | txByte0Extended room | txByte1 room => exact ⟨hcap, by simpa using room, hrx⟩
  case rxLo hb | rxHi hb =>
    simp only [hb, List.length_cons] at hrx
    exact ⟨hcap, htx, (Nat.le_succ _).trans hrx⟩
  all_goals exact h

theorem TurnCase.capacityInv {turn : Turn} {s t : State} (m : TurnCase s turn t) (h : CapacityInv s) :
    CapacityInv t := by
  have ⟨hcap, htx, hrx⟩ := h
  cases m with
  | framer _ m => exact m.capacityInv h
  | clocked b q hq =>
    simp only [hq, List.length_cons] at htx
    exact ⟨hcap, (Nat.le_succ _).trans htx, hrx⟩
  | arrived b room => exact ⟨hcap, htx, by simpa using room⟩
  | host m =>
    have hb := m.sameBlock
    simpa [CapacityInv, hb.params, hb.txq, hb.rxb] using h
  | accepted | rejected | overrun | still | reset => exact h

/-- After a publication the result registers agree, whatever they held. -/
theorem resultInv_of_published {s : State} (hok : s.rOk = decide (s.rStatus = .ok)) (hnew : s.rNew = true)
    (hwritten : s.written = true) (hst : s.st.resultPending = false) : ResultInv s := by
  refine ⟨.inr hok, ?_, fun _ => hwritten, ?_, fun _ => hnew⟩
  · simp [hwritten]
  · simp [hst]

/-- Between publications the result registers stay and the FSM stays on its side of the publication. -/
theorem resultInv_of_pending {s t : State} (h : ResultInv s) (hview : t.resultView = s.resultView)
    (hnew : t.rNew = s.rNew) (hwritten : t.written = s.written)
    (hpending : t.st.resultPending = true → s.st.resultPending = true)
    (hdone : t.st = .postFlush ∨ t.st = .quiet → s.st = .postFlush ∨ s.st = .quiet) : ResultInv t := by
  obtain ⟨hstatus, hok, hdata, hcount⟩ : t.rStatus = s.rStatus ∧ t.rOk = s.rOk ∧ t.rData = s.rData ∧
    t.rCount = s.rCount := by simpa [State.resultView] using hview
  obtain ⟨hagree, hfresh, hever, hdown, hup⟩ := h
  simp only [ResultInv, State.ResultAtReset, hstatus, hok, hdata, hcount, hnew, hwritten]
  exact ⟨hagree, hfresh, hever, fun hp => hdown (hpending hp), fun hp => hup (hdone hp)⟩

theorem FramerMove.resultInv {s t : State} (m : FramerMove s t) (h : ResultInv s) : ResultInv t := by
  cases m
  case badCount | extendedDone | verified | corrupt => exact resultInv_of_published rfl rfl rfl rfl
  case idle | held | draining => exact h
  all_goals exact resultInv_of_pending h rfl rfl rfl (by simp_all [Fsm.resultPending]) (by simp_all)

theorem TurnCase.resultInv {turn : Turn} {s t : State} (m : TurnCase s turn t) (h : ResultInv s) : ResultInv t := by
  cases m with
  | framer _ m => exact m.resultInv h
  | accepted =>
    obtain ⟨hagree, hfresh, -, -, -⟩ := h
    refine ⟨hagree.imp_left fun hreset => ?_, fun hw => ?_, nofun, fun _ => rfl, by simp⟩
    · exact ⟨hreset.1, hreset.2.1, hreset.2.2.1, hreset.2.2.2.1, rfl⟩
    · exact ⟨(hfresh hw).1, (hfresh hw).2.1, (hfresh hw).2.2.1, (hfresh hw).2.2.2.1, rfl⟩
  | rejected => exact resultInv_of_published rfl rfl rfl rfl
  | host m =>
    have hb := m.sameBlock
    exact resultInv_of_pending h hb.resultView hb.rNew hb.written (by simp [hb.st]) (by simp [hb.st])
  | reset =>
    exact ⟨.inl ⟨rfl, rfl, rfl, rfl, rfl⟩, fun _ => ⟨rfl, rfl, rfl, rfl, rfl⟩, nofun, nofun, by simp⟩
  | clocked | arrived | overrun | still => exact h

theorem TurnCase.inv {turn : Turn} {s t : State} (m : TurnCase s turn t) (h : Inv s) : Inv t :=
  ⟨m.directionInv h.direction, m.latchInv h.latch, m.sequenceInv h.sequence, m.capacityInv h.capacity,
    m.resultInv h.result⟩

/-- The invariant does not speak of the agenda. -/
theorem Inv.popTurn {s : State} (h : Inv s) : Inv s.popTurn :=
  ⟨h.direction, h.latch, h.sequence, h.capacity, h.result⟩

/-- Settles O51, part by part of the invariant. -/
theorem everyStepKeepsTheInvariant : Obligations.EveryStepKeepsTheInvariant := by
  unfold Obligations.EveryStepKeepsTheInvariant
  exact fun s t h hstep => (step_turnCase hstep).inv h.popTurn

/-- Settles O52: the invariants are decided at the reset state, whose history is empty and which runs no host loop. -/
theorem resetStateMeetsTheInvariants : Obligations.ResetStateMeetsTheInvariants := by
  unfold Obligations.ResetStateMeetsTheInvariants
  refine ⟨⟨by decide, by decide, by decide, by decide, by decide⟩, ⟨fun _ => rfl, nofun, ?_⟩, ⟨nofun, nofun⟩, nofun⟩
  exact fun b => List.not_mem_nil

end Sys2Proof.Machine
end

section
/-! The drive invariant, the settle wait and what is written (42_turnaround.md R146, R147; 30_encoding.md R84). -/

namespace Sys2Proof.Machine

/-! ### The drive invariant -/

/-- Appending an event that is no undriven byte keeps the history free of them. -/
theorem no_undriven_append {h es : List Event} (hh : ∀ b, Event.wire b false ∉ h) (hes : ∀ b, Event.wire b false ∉ es) :
    ∀ b, Event.wire b false ∉ h ++ es :=
  fun b hb => (List.mem_append.1 hb).elim (hh b) (hes b)

theorem FramerMove.driveInv {s t : State} (m : FramerMove s t) (hdir : DirectionInv s) (h : DriveInv s) :
    DriveInv t := by
  have ⟨hempty, hdone, hdriven⟩ := h
  cases m
  case idle | held | draining => exact h
  case txEnable => exact ⟨nofun, nofun, no_undriven_append hdriven (by simp)⟩
  case txByte0Read hs _ _ | txByte0Extended hs _ _ | txByte1 hs _ =>
    have hd : s.dir = .transmit := hdir.2 (by rw [hs]; rfl)
    exact ⟨by simp [hd], nofun, no_undriven_append hdriven (by simp)⟩
  case drained hq => exact ⟨fun _ => hq, fun _ => hq, hdriven⟩
  case rxEnable hs => exact ⟨fun _ => hdone hs, nofun, no_undriven_append hdriven (by simp)⟩
  case toRead => exact ⟨hempty, nofun, hdriven⟩
  all_goals exact ⟨hempty, nofun, no_undriven_append hdriven (by simp)⟩

theorem TurnCase.driveInv {turn : Turn} {s t : State} (m : TurnCase s turn t) (hdir : DirectionInv s)
    (h : DriveInv s) (hreset : turn = .rst → s.txq = []) : DriveInv t := by
  have ⟨hempty, hdone, hdriven⟩ := h
  cases m with
  | framer _ m => exact m.driveInv hdir h
  | accepted | rejected => exact ⟨hempty, nofun, no_undriven_append hdriven (by simp)⟩
  | clocked b q hq =>
    have hd : s.dir = .transmit := by
      cases hd : s.dir
      · rfl
      · simp [hempty hd] at hq
    refine ⟨by simp [hd], fun hs => ?_, no_undriven_append hdriven (by simp [hd])⟩
    simp [hdone hs] at hq
  | host m =>
    have hb := m.sameBlock
    simpa [DriveInv, hb.dir, hb.txq, hb.st, hb.history] using h
  | arrived | overrun => exact ⟨hempty, hdone, no_undriven_append hdriven (by simp)⟩
  | still => exact h
  | reset => exact ⟨fun _ => hreset rfl, nofun, no_undriven_append hdriven (by simp)⟩

/-- Settles O23: a byte is queued only while the driver is on, and the driver goes off only with the queue empty. -/
theorem everyStepKeepsTheDriveInvariant : Obligations.EveryStepKeepsTheDriveInvariant := by
  unfold Obligations.EveryStepKeepsTheDriveInvariant
  exact fun s t hdir h hreset hstep => (step_turnCase hstep).driveInv hdir h hreset

/-! ### The settle wait -/

@[simp] theorem blockEvents_append (h k : List Event) : blockEvents (h ++ k) = blockEvents h ++ blockEvents k :=
  List.filter_append ..

/-- A step that leaves the FSM where it is and adds no block event keeps the place of the settle wait. -/
theorem settleInv_of_st_eq {s t : State} (h : SettleInv s) (hst : t.st = s.st)
    (hblock : blockEvents t.history = blockEvents s.history) : SettleInv t := by
  rwa [SettleInv, hst, hblock]

/-- In any other state the settle invariant says nothing. -/
theorem settleInv_of_st_ne {s : State} (hsettle : s.st ≠ .txSettle) (hbyte0 : s.st ≠ .txByte0) : SettleInv s :=
  ⟨fun hs => absurd hs hsettle, fun hs => absurd hs hbyte0⟩

theorem FramerMove.settleInv {s t : State} (m : FramerMove s t) (h : SettleInv s) : SettleInv t := by
  have ⟨hset, _⟩ := h
  cases m
  case txEnable => exact ⟨fun _ => ⟨blockEvents s.history, blockEvents_append ..⟩, nofun⟩
  case txSettle hs =>
    obtain ⟨before, hbefore⟩ := hset hs
    have hwait : blockEvents [.wait .drvSettle] = [.wait .drvSettle] := rfl
    exact ⟨nofun, fun _ => ⟨before, by simp [hbefore, hwait]⟩⟩
  case idle | held | draining => exact h
  all_goals exact settleInv_of_st_ne nofun nofun

theorem TurnCase.settleInv {turn : Turn} {s t : State} (m : TurnCase s turn t) (h : SettleInv s) : SettleInv t := by
  cases m with
  | framer _ m => exact m.settleInv h
  | clocked | arrived | overrun => exact settleInv_of_st_eq h rfl (by simp [blockEvents])
  | host m => exact settleInv_of_st_eq h m.sameBlock.st (by rw [m.sameBlock.history])
  | accepted | rejected | reset => exact settleInv_of_st_ne nofun nofun
  | still => exact h

/-! ### What is written, and where -/

/-- A byte written to the UART is the host byte, in TX_BYTE0, or the sub-command, in TX_BYTE1. -/
theorem FramerMove.txWrite_mem {s t : State} (m : FramerMove s t) {es : List Event} {b : Byte}
    (hh : t.history = s.history ++ es) (hb : Event.txWrite b ∈ es) :
    s.st = .txByte0 ∧ b = hostByte s.latch ∨ s.st = .txByte1 ∧ b = s.latch.sub := by
  cases m
  case txByte0Read hs _ _ | txByte0Extended hs _ _ =>
    rw [← List.append_cancel_left hh] at hb
    exact .inl ⟨hs, by simpa using hb⟩
  case txByte1 hs _ =>
    rw [← List.append_cancel_left hh] at hb
    exact .inr ⟨hs, by simpa using hb⟩
  case idle | held | drained | draining | toRead =>
    rw [List.self_eq_append_right.1 hh] at hb
    cases hb
  all_goals
    rw [← List.append_cancel_left hh] at hb
    simp at hb

theorem TurnCase.txWrite_mem {turn : Turn} {s t : State} (m : TurnCase s turn t) {es : List Event} {b : Byte}
    (hh : t.history = s.history ++ es) (hb : Event.txWrite b ∈ es) :
    s.st = .txByte0 ∧ b = hostByte s.latch ∨ s.st = .txByte1 ∧ b = s.latch.sub := by
  cases m with
  | framer _ m => exact m.txWrite_mem hh hb
  | host m =>
    rw [m.sameBlock.history] at hh
    rw [List.self_eq_append_right.1 hh] at hb
    cases hb
  | still =>
    rw [List.self_eq_append_right.1 hh] at hb
    cases hb
  | accepted | rejected | clocked | arrived | overrun | reset =>
    rw [← List.append_cancel_left hh] at hb
    simp at hb

theorem FramerMove.st_of_txByte1 {s t : State} (m : FramerMove s t) (ht : t.st = .txByte1) :
    s.st = .txByte1 ∨ s.st = .txByte0 := by
  cases m
  case txByte0Extended hs _ _ => exact .inr hs
  case idle | held | draining => exact .inl ht
  all_goals cases ht

theorem TurnCase.st_of_txByte1 {turn : Turn} {s t : State} (m : TurnCase s turn t) (ht : t.st = .txByte1) :
    s.st = .txByte1 ∨ s.st = .txByte0 := by
  cases m with
  | framer _ m => exact m.st_of_txByte1 ht
  | host m => exact .inl (m.sameBlock.st ▸ ht)
  | clocked | arrived | overrun | still => exact .inl ht
  | accepted | rejected | reset => cases ht

/-- Settles O24: the settle invariant step by step, where a byte is written, and how TX_BYTE1 is entered. -/
theorem settleWaitComesBeforeTheFirstByte : Obligations.SettleWaitComesBeforeTheFirstByte := by
  unfold Obligations.SettleWaitComesBeforeTheFirstByte
  refine ⟨fun s t h hstep => (step_turnCase hstep).settleInv h, fun s t es b hstep hh hb => ?_,
    fun s t hstep ht => (step_turnCase hstep).st_of_txByte1 ht⟩
  exact ((step_turnCase hstep).txWrite_mem hh hb).imp And.left And.left

/-- On an aligned base the modifier that a host byte carries is the one it was made from (R81, R82). -/
theorem modifierOf_hostByteOf {base : Byte} (haligned : base.extractLsb' 0 2 = 0#2) (m : BitVec 2) :
    modifierOf (hostByteOf base m) = m := by
  rw [modifierOf, hostByteOf, BitVec.extractLsb'_or, haligned, BitVec.zero_or]
  ext i hi
  have hbyte : i < 8 := by omega
  simp [hi, hbyte]

/-- Settles O44: the latch is legal, so that its modifier, which the host byte carries, is not the reserved one, and
neither sub-command ends in it. -/
theorem reservedModifierIsNeverTransmitted : Obligations.ReservedModifierIsNeverTransmitted := by
  unfold Obligations.ReservedModifierIsNeverTransmitted
  intro s t es b h hstep hh hb
  obtain ⟨haligned, hcmd, hsub⟩ := (legal_iff _).1 h.latch
  obtain ⟨hbyte1, -⟩ := h.sequence
  rcases (step_turnCase hstep).txWrite_mem hh hb with ⟨-, rfl⟩ | ⟨hs, rfl⟩
  · have hm : modifierOf (hostByte s.latch) = s.latch.cmd := modifierOf_hostByteOf haligned _
    exact hm ▸ hcmd
  · rcases hsub (hbyte1 hs) with hsub | hsub
    · simp [hsub, modifierOf]
    · simp [hsub, modifierOf]

end Sys2Proof.Machine
end

section
/-! Results: each request publishes once, and only a publication changes the result registers (10_state.md R27,
60_exceptions.md R213). -/

namespace Sys2Proof.Machine

@[simp] theorem publishedOf_append (h k : List Event) : publishedOf (h ++ k) = publishedOf h + publishedOf k :=
  List.countP_append

/-- What R213 says of one step: the results published and the one pending grow by as much as the requests taken. -/
def BalancesResults (s t : State) : Prop :=
  publishedOf t.history + t.pending + requestsOf s.history = publishedOf s.history + s.pending + requestsOf t.history

/-- A step keeps the balance if its own events do. -/
theorem balancesResults_of_events {s t : State} (es : List Event) (hh : t.history = s.history ++ es)
    (hes : publishedOf es + t.pending = s.pending + requestsOf es) : BalancesResults s t := by
  rw [BalancesResults, hh, publishedOf_append, requestsOf_append]
  omega

/-- A step that neither takes a request nor publishes, and does not cross the publication, keeps the balance. -/
theorem balancesResults_of_silent {s t : State} (es : List Event) (hh : t.history = s.history ++ es)
    (hpublished : publishedOf es = 0) (hrequests : requestsOf es = 0)
    (hpending : t.st.resultPending = s.st.resultPending) : BalancesResults s t :=
  balancesResults_of_events es hh (by simp [State.pending, hpublished, hrequests, hpending])

theorem balancesResults_of_history_eq {s t : State} (hh : t.history = s.history)
    (hpending : t.st.resultPending = s.st.resultPending) : BalancesResults s t :=
  balancesResults_of_silent [] (by simp [hh]) rfl rfl hpending

theorem FramerMove.balancesResults {s t : State} (m : FramerMove s t) : BalancesResults s t := by
  cases m
  case idle | held | draining => exact balancesResults_of_history_eq rfl rfl
  case drained hs _ | toRead hs _ _ => exact balancesResults_of_history_eq rfl (by rw [hs]; rfl)
  case badCount hs _ _ | extendedDone hs _ _ | verified hs _ | corrupt hs _ =>
    exact balancesResults_of_events [_] rfl (by rw [State.pending, State.pending, hs]; rfl)
  all_goals exact balancesResults_of_silent [_] rfl rfl rfl (by simp_all [Fsm.resultPending])

theorem TurnCase.balancesResults {turn : Turn} {s t : State} (m : TurnCase s turn t) (hrst : turn ≠ .rst) :
    BalancesResults s t := by
  cases m with
  | framer _ m => exact m.balancesResults
  | accepted hs => exact balancesResults_of_events [_] rfl (by rw [State.pending, State.pending, hs]; rfl)
  | rejected hs => exact balancesResults_of_events [_, _] rfl (by rw [State.pending, State.pending, hs]; rfl)
  | clocked | arrived | overrun => exact balancesResults_of_silent [_] rfl rfl rfl rfl
  | still => exact balancesResults_of_history_eq rfl rfl
  | host m => exact balancesResults_of_history_eq m.sameBlock.history (by rw [m.sameBlock.st])
  | reset => exact absurd rfl hrst

/-- Settles O49: an accepted request makes a result pending, a rejected one is published at once, and what is pending
stays so until RX_CHECK or VERIFY publishes it. -/
theorem eachRequestPublishesExactlyOnce : Obligations.EachRequestPublishesExactlyOnce := by
  unfold Obligations.EachRequestPublishesExactlyOnce
  exact fun s t hrst hstep => (step_turnCase hstep).balancesResults hrst

/-- A step that ends with the publication of what the result registers then hold (R214). -/
def Publishes (s t : State) : Prop :=
  t.rNew = true ∧ ∃ es, t.history = s.history ++ es ∧ Event.publish t.rStatus t.rData t.rCount ∈ es ∧
    t.rOk = (t.rStatus == .ok)

theorem FramerMove.resultView_eq_or_publishes {s t : State} (m : FramerMove s t) :
    t.resultView = s.resultView ∨ Publishes s t := by
  cases m
  case badCount | extendedDone | verified | corrupt => exact .inr ⟨rfl, [_], rfl, by simp, rfl⟩
  all_goals exact .inl rfl

theorem TurnCase.resultView_eq_or_publishes {turn : Turn} {s t : State} (m : TurnCase s turn t) (hrst : turn ≠ .rst) :
    t.resultView = s.resultView ∨ Publishes s t := by
  cases m with
  | framer _ m => exact m.resultView_eq_or_publishes
  | rejected => exact .inr ⟨rfl, [_, _], rfl, by simp, rfl⟩
  | host m => exact .inl m.sameBlock.resultView
  | accepted | clocked | arrived | overrun | still => exact .inl rfl
  | reset => exact absurd rfl hrst

/-- Settles O55: a move of a turn either leaves the result registers or publishes. -/
theorem resultRegistersChangeOnlyByPublishing : Obligations.ResultRegistersChangeOnlyByPublishing := by
  unfold Obligations.ResultRegistersChangeOnlyByPublishing
  intro s t hrst hstep hchanged
  exact ((step_turnCase hstep).resultView_eq_or_publishes hrst).resolve_left hchanged

end Sys2Proof.Machine
end

section
/-! The host: its reads of the result port and its retry loops (60_exceptions.md section 4). -/

namespace Sys2Proof.Machine

/-! ### Within the attempts -/

/-- What a loop returns names the attempt at which it returns (R222). -/
theorem attempts_of_retryDecision {r : ResultView} {k maxAttempts : Nat} {out : ReadOutcome}
    (h : retryDecision r k maxAttempts = some out) : out.attempts = k := by
  unfold retryDecision at h
  split at h
  · cases h; rfl
  · cases h; rfl
  · split at h <;> cases h; rfl
  · split at h <;> cases h; rfl

/-- At the last attempt a loop returns, whatever the result (R225). -/
theorem ne_last_of_retryDecision_eq_none {r : ResultView} {k maxAttempts : Nat}
    (h : retryDecision r k maxAttempts = none) : k ≠ maxAttempts := by
  rintro rfl
  unfold retryDecision at h
  split at h <;> simp at h

theorem HostMove.loopInv {s t : State} (m : HostMove s t) (h : LoopInv s) : LoopInv t := by
  cases m with
  | start c n _ hn =>
    rintro l ⟨⟩
    exact ⟨le_rfl, Nat.one_le_iff_ne_zero.2 hn⟩
  | loopPresent l hl =>
    rintro _ ⟨⟩
    exact h l hl
  | loopReturn => exact nofun
  | loopAgain l hl _ _ _ hagain =>
    obtain ⟨-, hmax⟩ := h l hl
    rintro _ ⟨⟩
    exact ⟨Nat.le_add_left .., Nat.lt_of_le_of_ne hmax (ne_last_of_retryDecision_eq_none hagain)⟩
  | none | present | withdraw | read => exact h

/-- A loop that returns in a host move returns the number of its attempt. -/
theorem HostMove.attempts_of_return {s t : State} (m : HostMove s t) {l : HostLoop} {out : ReadOutcome}
    (hs : s.hostLoop = some l) (ht : t.hostLoop = .none) (hout : t.hostOutcome = some out) :
    out.attempts = l.attempts := by
  cases m with
  | loopReturn l' out' hl _ _ _ hreturn =>
    obtain rfl : l' = l := Option.some.inj (hl.symm.trans hs)
    obtain rfl : out' = out := Option.some.inj hout
    exact attempts_of_retryDecision hreturn
  | start | loopPresent | loopAgain => cases ht
  | none | present | withdraw | read => simp [hs] at ht

/-- Only the host writes its loop. -/
theorem FramerMove.hostLoop_eq {s t : State} (m : FramerMove s t) : t.hostLoop = s.hostLoop := by
  cases m <;> rfl

/-- A turn's case either keeps the host's loop or is a move of the host. -/
theorem TurnCase.hostLoop_eq_or_hostMove {turn : Turn} {s t : State} (m : TurnCase s turn t) :
    t.hostLoop = s.hostLoop ∨ HostMove s t := by
  cases m with
  | framer _ m => exact .inl m.hostLoop_eq
  | host m => exact .inr m
  | accepted | rejected | clocked | arrived | overrun | still | reset => exact .inl rfl

/-- Settles O60: a loop that goes on is not at its last attempt, and one that returns names the attempt it is at. -/
theorem hostLoopNeverExceedsItsAttempts : Obligations.HostLoopNeverExceedsItsAttempts := by
  unfold Obligations.HostLoopNeverExceedsItsAttempts
  intro s t h hstep
  rcases (step_turnCase hstep).hostLoop_eq_or_hostMove with heq | m
  · refine ⟨fun l hl => h l (heq.symm.trans hl), fun l out hs ht => ?_⟩
    exact absurd (heq.symm.trans ht) (by simp [hs])
  · refine ⟨m.loopInv h, fun l out hs ht hout => ?_⟩
    rw [m.attempts_of_return hs ht hout]
    exact h l hs

/-! ### The steps of a host loop -/

/-- The host's action outside a loop. -/
theorem hostAction_of_none {act : State → Result} {s : State} (h : s.hostLoop = none) : hostAction act s = act s := by
  simp [hostAction, h]

/-- While a loop runs, the host does nothing else (R21). -/
theorem hostAction_of_some {act : State → Result} {s : State} {l : HostLoop} (h : s.hostLoop = some l) :
    hostAction act s = .next s := by
  simp [hostAction, h]

@[simp] theorem takeTurn_readResult (s : State) : takeTurn .readResult s = hostAction readResult s := rfl

@[simp] theorem takeTurn_call (c : ReadCall) (n : Nat) (s : State) :
    takeTurn (.call c n) s = hostAction (startLoop c n) s := rfl

@[simp] theorem takeTurn_hostLoop (s : State) : takeTurn .hostLoop s = .next (hostLoopStep s) := rfl

theorem readResult_written {s : State} (h : s.written = true) :
    readResult s = .next { s with hostReading := some s.resultView } := by
  simp [readResult, h]

theorem readResult_unwritten {s : State} (h : s.written = false) : readResult s = .fault .resultUnwritten := by
  simp [readResult, h]

/-- The host's read outside a loop, off the agenda. -/
theorem step_readResult {s : State} {rest : List Turn} (ha : s.agenda = .readResult :: rest) (hl : s.hostLoop = none) :
    step s = readResult { s with agenda := rest } := by
  rw [step_cons ha, takeTurn_readResult, hostAction_of_none (s := { s with agenda := rest }) hl]

theorem startLoop_zero (c : ReadCall) (s : State) : startLoop c 0 s = .fault .retryPrecondition := rfl

theorem startLoop_pos {n : Nat} (hn : 1 ≤ n) (c : ReadCall) (s : State) :
    startLoop c n s = .next { s with hostLoop := some ⟨c, n, 1, .request⟩, hostOutcome := none } := by
  simp [startLoop, Nat.one_le_iff_ne_zero.1 hn]

/-- A loop waits until its request is taken and `rsp_valid` is up (R222). -/
theorem loopAwait_not_ready {s : State} (l : HostLoop) (h : ¬ (s.reqValid = false ∧ s.rNew = true)) :
    loopAwait l s = s :=
  if_neg h

/-- A loop with its result returns, where its decision is to return (R222). -/
theorem loopAwait_return {s : State} {l : HostLoop} {out : ReadOutcome} (hv : s.reqValid = false) (hn : s.rNew = true)
    (hd : retryDecision s.resultView l.attempts l.maxAttempts = some out) :
    loopAwait l s = { s with hostReading := some s.resultView, hostLoop := none, hostOutcome := some out } := by
  simp [loopAwait, hv, hn, hd]

/-- A loop with its result makes another attempt, where its decision is not to return (R222). -/
theorem loopAwait_again {s : State} {l : HostLoop} (hv : s.reqValid = false) (hn : s.rNew = true)
    (hd : retryDecision s.resultView l.attempts l.maxAttempts = none) :
    loopAwait l s = { s with
      hostReading := some s.resultView
      hostLoop := some { l with attempts := l.attempts + 1, phase := .request } } := by
  simp [loopAwait, hv, hn, hd]

theorem retryDecision_ok {r : ResultView} (h : r.status = .ok) (k maxAttempts : Nat) :
    retryDecision r k maxAttempts = some ⟨r.data, true, k⟩ := by
  simp [retryDecision, h]

theorem retryDecision_illegal {r : ResultView} (h : r.status = .illegalRequest) (k maxAttempts : Nat) :
    retryDecision r k maxAttempts = some ⟨failureData, false, k⟩ := by
  simp [retryDecision, h]

/-- On a bus error a loop returns at its last attempt only (R224, R225). -/
theorem retryDecision_busError {r : ResultView} (h : r.status = .byteCountMismatch ∨ r.status = .checksumMismatch)
    (k maxAttempts : Nat) :
    retryDecision r k maxAttempts = if k = maxAttempts then some ⟨failureData, false, k⟩ else none := by
  rcases h with h | h <;> simp [retryDecision, h]

/-- Settles O58: the read is a fault or the registers by `written`, which the reset before it leaves as it is. -/
theorem hostReadFaultsBeforeTheFirstResult : Obligations.HostReadFaultsBeforeTheFirstResult := by
  unfold Obligations.HostReadFaultsBeforeTheFirstResult
  constructor
  · intro s rest ha hl
    rw [step_readResult ha hl]
    exact ⟨fun hw => readResult_unwritten hw, fun hw => readResult_written hw⟩
  · intro s rest ha hl hw
    have hreset : step s = .next { s with agenda := .readResult :: rest }.resetBlock := by
      rw [step_cons ha, takeTurn_rst]
    have hread : step { s with agenda := .readResult :: rest }.resetBlock =
        .next { { s with agenda := rest }.resetBlock with hostReading := some ⟨.ok, false, 0xFFFF#16, 0#8⟩ } :=
      Eq.trans (step_readResult rfl hl) (readResult_written hw)
    exact ⟨_, (run_succ hreset).trans (run_succ hread), rfl, rfl⟩

/-- Settles O59, clause by clause: the call, the request, and what a loop does with the result it waited for. -/
theorem hostLoopRetriesBusErrorsOnly : Obligations.HostLoopRetriesBusErrorsOnly := by
  unfold Obligations.HostLoopRetriesBusErrorsOnly
  refine ⟨fun s rest c n ha hl => ?_, fun s rest l ha hl hp => ?_, fun s rest l ha hl hp => ?_, fun _ _ _ => ⟨rfl, rfl⟩⟩
  · rw [step_cons ha, takeTurn_call, hostAction_of_none (s := { s with agenda := rest }) hl]
    constructor
    · rintro rfl
      exact startLoop_zero c _
    · exact fun hn => ⟨none, startLoop_pos hn c _⟩
  · rw [step_cons ha, takeTurn_hostLoop, hostLoopStep_request (s := { s with agenda := rest }) hl hp]
    refine ⟨fun hbusy => congrArg Host.Outcome.next (loopPresent_waits l hbusy), fun hidle => ?_⟩
    refine ⟨encodeRequest l.call.command s.req, ?_, ?_, congrArg Host.Outcome.next (loopPresent_ready l hidle)⟩
    · intro base res hcall
      rw [hcall]
      cases res <;> rfl
    · intro base hcall
      rw [hcall]
      rfl
  · rw [step_cons ha, takeTurn_hostLoop, hostLoopStep_await (s := { s with agenda := rest }) hl hp]
    refine ⟨fun hwaits => congrArg Host.Outcome.next (loopAwait_waits l hwaits), fun hv hn => ?_⟩
    refine ⟨fun hok => ?_, fun hillegal => ?_, fun hbus hlast => ?_, fun hbus hearlier => ?_⟩
    · exact congrArg Host.Outcome.next (loopAwait_return hv hn (retryDecision_ok hok _ _))
    · exact congrArg Host.Outcome.next (loopAwait_return hv hn (retryDecision_illegal hillegal _ _))
    · exact congrArg Host.Outcome.next
        (loopAwait_return hv hn ((retryDecision_busError hbus _ _).trans (if_pos hlast)))
    · exact congrArg Host.Outcome.next
        (loopAwait_again hv hn ((retryDecision_busError hbus _ _).trans (if_neg hearlier)))

end Sys2Proof.Machine
end

section
/-! The checksum validator (40_checksum.md) and the readings of a response word (41_decode.md). -/

namespace Sys2Proof.Machine

/-! ### The accumulator and the device-side check field -/

/-- A pair of R110 is the two bits of the word at its index. -/
theorem pair_eq_extractLsb' (raw : Word) (i : Nat) :
    ((raw >>> i) &&& 0b11#16).setWidth 2 = raw.extractLsb' i 2 := by
  apply BitVec.eq_of_toNat_eq
  have hmask : (raw.toNat >>> i) &&& 3 = raw.toNat >>> i % 4 := Nat.and_two_pow_sub_one_eq_mod _ 2
  rw [BitVec.toNat_setWidth, BitVec.toNat_and, BitVec.toNat_ushiftRight, BitVec.extractLsb'_toNat]
  exact (congrArg (· % 4) hmask).trans (Nat.mod_mod _ 4)

theorem checksumAcc_eq (raw : Word) :
    checksumAcc raw = 0b11#2 ^^^ raw.extractLsb' 0 2 ^^^ raw.extractLsb' 2 2 ^^^ raw.extractLsb' 4 2
      ^^^ raw.extractLsb' 6 2 ^^^ raw.extractLsb' 8 2 ^^^ raw.extractLsb' 10 2 ^^^ raw.extractLsb' 12 2 := by
  simp only [checksumAcc, pairIndices, List.foldl, pair_eq_extractLsb']

/-- The validator compares the accumulator with the top two bits of the word (R111). -/
theorem verify_iff (raw : Word) : verify raw = true ↔ checksumAcc raw = raw.extractLsb' 14 2 := by
  have hword := raw.isLt
  have hacc := (checksumAcc raw).isLt
  rw [verify, beq_iff_eq, ← BitVec.toNat_inj, ← BitVec.toNat_inj, BitVec.toNat_setWidth, BitVec.toNat_ushiftRight,
    BitVec.extractLsb'_toNat, Nat.shiftRight_eq_div_pow]
  omega

/-- The accumulator of a word is the device-side check field of its payload. -/
theorem checksumAcc_append (c : BitVec 2) (m : BitVec 14) : checksumAcc (c ++ m) = csum m := by
  rw [checksumAcc_eq, csum]
  have hpair (i : Nat) (hi : i + 2 ≤ 14) : (c ++ m).extractLsb' i 2 = m.extractLsb' i 2 :=
    BitVec.extractLsb'_append_eq_of_add_le hi
  simp only [hpair, Nat.reduceAdd, Nat.reduceLeDiff]

/-- A word passes exactly if its check bits are the device-side check field of its payload (R113). -/
theorem verify_append (c : BitVec 2) (m : BitVec 14) : verify (c ++ m) = true ↔ c = csum m := by
  rw [verify_iff, checksumAcc_append, BitVec.extractLsb'_append_eq_left, eq_comm]

/-- The device-side word is its check field above its payload. -/
theorem enc_eq_append (m : BitVec 14) : enc m = csum m ++ m := by
  rw [BitVec.append_def, BitVec.shiftLeftZeroExtend_eq, BitVec.setWidth'_eq, enc]

/-- A word is its check bits above its payload. -/
theorem word_eq_append (raw : Word) : raw = raw.extractLsb' 14 2 ++ raw.extractLsb' 0 14 :=
  (BitVec.extractLsb'_append_extractLsb' (w := 2) (len := 14)).symm

/-- Settles O2: the check bits of a passing word are fixed by its payload, and every word is check bits and payload. -/
theorem oneCheckFieldPassesForEachPayload : Obligations.OneCheckFieldPassesForEachPayload := by
  unfold Obligations.OneCheckFieldPassesForEachPayload
  refine ⟨fun m c => verify_append c m, fun m => ?_, fun raw hraw => ⟨raw.extractLsb' 0 14, ?_⟩⟩
  · rw [enc_eq_append]
    exact ⟨(verify_append _ m).2 rfl, BitVec.extractLsb'_append_eq_right⟩
  · rw [word_eq_append raw, verify_append] at hraw
    rw [enc_eq_append, ← hraw, ← word_eq_append]

/-! ### Parity of the two halves -/

/-- Two bits are equal if both of them are. -/
theorem twoBits_eq_iff (a b : BitVec 2) : a = b ↔ a.getLsbD 1 = b.getLsbD 1 ∧ a.getLsbD 0 = b.getLsbD 0 := by
  revert a b; decide

/-- Settles O1: bit `j` of the accumulator collects the payload bits whose index has the parity of `j`. -/
theorem verifyIsParityOfEachHalf : Obligations.VerifyIsParityOfEachHalf := by
  unfold Obligations.VerifyIsParityOfEachHalf
  intro raw
  rw [Bool.eq_iff_iff, verify_iff, checksumAcc_eq, twoBits_eq_iff, Bool.and_eq_true, beq_iff_eq, beq_iff_eq]
  have hone : (0b11#2).getLsbD 1 = true := rfl
  have hzero : (0b11#2).getLsbD 0 = true := rfl
  simp only [BitVec.getLsbD_xor, BitVec.getLsbD_extractLsb', hone, hzero, Nat.reduceAdd, Nat.reduceLT, decide_true,
    Bool.true_and]
  refine and_congr ?_ ?_
  all_goals
    rw [eq_comm, ← Bool.true_xor]
    exact Eq.congr_right (by simp only [Bool.xor_assoc, Bool.xor_comm])

/-! ### Flipped bits -/

/-- The parity of the bits of a word whose index has the parity of `p`. -/
def halfParity (p : Nat) (raw : Word) : Bool :=
  (List.range 8).foldr (fun k acc => raw.getLsbD (2 * k + p) ^^ acc) false

/-- Parity is linear. -/
theorem halfParity_xor (p : Nat) (a b : Word) : halfParity p (a ^^^ b) = (halfParity p a ^^ halfParity p b) := by
  unfold halfParity
  induction List.range 8 with
  | nil => rfl
  | cons k ks ih =>
    rw [List.foldr_cons, List.foldr_cons, List.foldr_cons, ih, BitVec.getLsbD_xor]
    simp only [Bool.xor_assoc, Bool.xor_left_comm]

/-- A single bit is in the half of its index's parity. -/
theorem halfParity_twoPow {i p : Nat} (hi : i < 16) (hp : p < 2) :
    halfParity p (BitVec.twoPow 16 i) = decide (i % 2 = p) := by
  have hall : ∀ i < 16, ∀ p < 2, halfParity p (BitVec.twoPow 16 i) = decide (i % 2 = p) := by decide
  exact hall i hi p hp

/-- A word passes if both halves, check bits included, have odd parity. -/
theorem verify_eq_halfParity (raw : Word) : verify raw = (halfParity 1 raw && halfParity 0 raw) := by
  have hneg (a b : Bool) : (a == !b) = (a ^^ b) := by cases a <;> cases b <;> rfl
  rw [verifyIsParityOfEachHalf, hneg, hneg]
  refine congrArg₂ _ ?_ ?_
  all_goals
    simp only [halfParity, List.range, List.range.loop, List.foldr, Nat.reduceMul, Nat.reduceAdd, Bool.xor_assoc,
      Bool.xor_comm, Bool.false_xor]

/-- Settles O3: a flip changes the parity of its own half and of no other. -/
theorem singleFlipDetectedDoubleFlipByIndexParity : Obligations.SingleFlipDetectedDoubleFlipByIndexParity := by
  unfold Obligations.SingleFlipDetectedDoubleFlipByIndexParity
  have hodd {raw : Word} (h : verify raw = true) : halfParity 1 raw = true ∧ halfParity 0 raw = true := by
    rwa [verify_eq_halfParity, Bool.and_eq_true] at h
  constructor
  · intro raw i hi h
    obtain ⟨h1, h0⟩ := hodd h
    rw [verify_eq_halfParity, halfParity_xor, halfParity_xor, halfParity_twoPow hi one_lt_two,
      halfParity_twoPow hi two_pos, h1, h0]
    rcases Nat.mod_two_eq_zero_or_one i with hp | hp <;> simp [hp]
  · intro raw i j hi hj _ h
    obtain ⟨h1, h0⟩ := hodd h
    simp only [verify_eq_halfParity, halfParity_xor, halfParity_twoPow hi one_lt_two, halfParity_twoPow hi two_pos,
      halfParity_twoPow hj one_lt_two, halfParity_twoPow hj two_pos, h1, h0]
    rcases Nat.mod_two_eq_zero_or_one i with hp | hp <;> rcases Nat.mod_two_eq_zero_or_one j with hq | hq <;>
      simp [hp, hq]

/-! ### Readings -/

/-- The payload of a word, as a number, is the word's remainder by `2^14`. -/
theorem payload_toNat (c : BitVec 2) (m : BitVec 14) : (c ++ m).toNat % 16384 = m.toNat := by
  have hm := m.isLt
  have hdiv : (2 ^ 14 * c.toNat + m.toNat) % 2 ^ 14 = m.toNat := by omega
  rw [BitVec.toNat_append, ← Nat.shiftLeft_add_eq_or_of_lt hm, Nat.shiftLeft_eq, Nat.mul_comm]
  exact hdiv

/-- A position is a function of the payload (R129). -/
theorem decodePosition_toNat_append (c : BitVec 2) (m : BitVec 14) (res : Resolution) :
    (decodePosition (c ++ m) res).toNat = match res with
      | .res14 => m.toNat
      | .res12 => m.toNat / 4 := by
  cases res
  · rw [decodePosition_res14_toNat, payload_toNat]
  · rw [decodePosition_res12_toNat, payload_toNat]

/-- A position has 14 bits at most (R130). -/
theorem decodePosition_toNat_lt (raw : Word) (res : Resolution) : (decodePosition raw res).toNat < 16384 := by
  cases res
  · rw [decodePosition_res14_toNat]; omega
  · rw [decodePosition_res12_toNat]; omega

/-- Settles O6, from the readings as functions of the payload, the bound on positions and the integer of a turn
count. -/
theorem readingsIgnoreCheckBitsAndPositionsAvoidSentinel :
    Obligations.ReadingsIgnoreCheckBitsAndPositionsAvoidSentinel := by
  unfold Obligations.ReadingsIgnoreCheckBitsAndPositionsAvoidSentinel
  refine ⟨fun m c c' res => ⟨?_, ?_⟩, fun raw res hsentinel => ?_, fun raw => ?_⟩
  · apply BitVec.eq_of_toNat_eq
    rw [decodePosition_toNat_append, decodePosition_toNat_append]
  · rw [decodeTurns_eq_signExtend, decodeTurns_eq_signExtend, BitVec.extractLsb'_append_eq_right,
      BitVec.extractLsb'_append_eq_right]
  · exact absurd (hsentinel ▸ decodePosition_toNat_lt raw res) (by decide)
  · have hturns : (0xFFFF#16).toInt = (0x3FFF#14).toInt := rfl
    rw [← BitVec.toInt_inj, decodeTurns_toInt, hturns, BitVec.toInt_inj]

end Sys2Proof.Machine
end

section
/-! The encodings: the wire, the request port and the command map (30_encoding.md). -/

namespace Sys2Proof

open Machine

/-! ### Host bytes -/

theorem alignedBase_iff (base : Byte) : alignedBase base = true ↔ base.extractLsb' 0 2 = 0#2 := beq_iff_eq

/-- A byte is its slot and its modifier (R81). -/
theorem byte_eq_append (b : Byte) : b = b.extractLsb' 2 6 ++ modifierOf b :=
  (BitVec.extractLsb'_append_extractLsb' (w := 6) (len := 2)).symm

/-- A base address is a slot above two zero bits (R81). -/
theorem baseOf_eq_append (b : Byte) : baseOf b = b.extractLsb' 2 6 ++ 0#2 := by
  rw [baseOf, BitVec.append_def, BitVec.shiftLeftZeroExtend_eq, BitVec.setWidth'_eq, BitVec.setWidth_zero,
    BitVec.or_zero]

theorem alignedBase_baseOf (b : Byte) : alignedBase (baseOf b) = true := by
  rw [alignedBase_iff, baseOf_eq_append, BitVec.extractLsb'_append_eq_right]

theorem hostByteOf_append (slot : BitVec 6) (m : BitVec 2) : hostByteOf (slot ++ 0#2) m = slot ++ m := by
  rw [hostByteOf, BitVec.append_def, BitVec.append_def]
  simp [BitVec.shiftLeftZeroExtend_eq]

/-- A host byte is its base with its modifier (R81). -/
theorem hostByteOf_baseOf_modifierOf (b : Byte) : hostByteOf (baseOf b) (modifierOf b) = b := by
  rw [baseOf_eq_append, hostByteOf_append, ← byte_eq_append]

theorem baseOf_hostByteOf {base : Byte} (haligned : alignedBase base = true) (m : BitVec 2) :
    baseOf (hostByteOf base m) = base := by
  have hbase : base = base.extractLsb' 2 6 ++ 0#2 := by
    rw [← (alignedBase_iff base).1 haligned]
    exact byte_eq_append base
  rw [hbase, hostByteOf_append, baseOf_eq_append, BitVec.extractLsb'_append_eq_left]

/-! ### Extended commands -/

theorem extendedCommand_base (base sub : Byte) : (extendedCommand base sub).base = base := by
  unfold extendedCommand
  split
  · rfl
  · split <;> rfl

theorem extendedCommand_modifier (base sub : Byte) : (extendedCommand base sub).modifier = 0b10#2 := by
  unfold extendedCommand
  split
  · rfl
  · split <;> rfl

theorem extendedCommand_sub? (base sub : Byte) : (extendedCommand base sub).sub? = some sub := by
  unfold extendedCommand
  split
  · simp [Instr.sub?, *]
  · split
    · simp [Instr.sub?, *]
    · rfl

/-- What `wellFormed` says: an aligned base, and an undefined sub-command is none of the two that are defined (R90). -/
theorem Instr.wellFormed_iff (i : Instr) : i.wellFormed = true ↔
    alignedBase i.base = true ∧ ∀ base sub, i = .undefinedSubCommand base sub → sub ≠ 0x5E#8 ∧ sub ≠ 0x75#8 := by
  cases i <;> simp [Instr.wellFormed]

theorem extendedCommand_wellFormed {base : Byte} (haligned : alignedBase base = true) (sub : Byte) :
    (extendedCommand base sub).wellFormed = true := by
  rw [Instr.wellFormed_iff, extendedCommand_base]
  refine ⟨haligned, fun base' sub' h => ?_⟩
  unfold extendedCommand at h
  split at h
  · cases h
  · split at h
    · cases h
    · cases h; exact ⟨‹_›, ‹_›⟩

theorem extendedCommand_undefined {base sub : Byte} (h : (Instr.undefinedSubCommand base sub).wellFormed = true) :
    extendedCommand base sub = .undefinedSubCommand base sub := by
  obtain ⟨hzero, hreset⟩ := ((Instr.wellFormed_iff _).1 h).2 base sub rfl
  rw [extendedCommand, if_neg hzero, if_neg hreset]

theorem Instr.alignedBase_of_wellFormed {i : Instr} (h : i.wellFormed = true) : alignedBase i.base = true :=
  (i.wellFormed_iff.1 h).1

/-! ### The wire -/

theorem decodeWire_getpos {b : Byte} (h : modifierOf b = 0b00#2) (res : Resolution) (rest : List Byte) :
    decodeWire res (b :: rest) = .ok (.getpos (baseOf b) res, rest) := by
  simp [decodeWire, h]

theorem decodeWire_getturns {b : Byte} (h : modifierOf b = 0b01#2) (res : Resolution) (rest : List Byte) :
    decodeWire res (b :: rest) = .ok (.getturns (baseOf b), rest) := by
  simp [decodeWire, h]

theorem decodeWire_extended {b : Byte} (h : modifierOf b = 0b10#2) (res : Resolution) (sub : Byte)
    (rest : List Byte) :
    decodeWire res (b :: sub :: rest) = .ok (extendedCommand (baseOf b) sub, rest) := by
  simp [decodeWire, h]

theorem decodeWire_extended_nil {b : Byte} (h : modifierOf b = 0b10#2) (res : Resolution) :
    decodeWire res [b] = .error .missingSubCommand := by
  simp [decodeWire, h]

theorem decodeWire_reserved {b : Byte} (h : modifierOf b = 0b11#2) (res : Resolution) (rest : List Byte) :
    decodeWire res (b :: rest) = .ok (.reservedModifier (baseOf b), rest) := by
  simp [decodeWire, h]

/-- Settles O7: the host byte gives back the base and the modifier, the modifier the row, and in the rows of two bytes
the second byte the command. -/
theorem wireDecodeOfEncodeIsTheCommand : Obligations.WireDecodeOfEncodeIsTheCommand := by
  unfold Obligations.WireDecodeOfEncodeIsTheCommand
  intro i res rest hwf hres
  have haligned := Instr.alignedBase_of_wellFormed hwf
  have hmodifier : modifierOf (hostByteOf i.base i.modifier) = i.modifier :=
    modifierOf_hostByteOf ((alignedBase_iff _).1 haligned) _
  have hbase : baseOf (hostByteOf i.base i.modifier) = i.base := baseOf_hostByteOf haligned _
  cases i with
  | getpos base r =>
    obtain rfl := hres base r rfl
    exact (decodeWire_getpos hmodifier r rest).trans (by rw [hbase]; rfl)
  | getturns base => exact (decodeWire_getturns hmodifier res rest).trans (by rw [hbase]; rfl)
  | setzero base => exact (decodeWire_extended hmodifier res 0x5E#8 rest).trans (by rw [hbase]; rfl)
  | resetdev base => exact (decodeWire_extended hmodifier res 0x75#8 rest).trans (by rw [hbase]; rfl)
  | reservedModifier base => exact (decodeWire_reserved hmodifier res rest).trans (by rw [hbase]; rfl)
  | undefinedSubCommand base sub =>
    exact (decodeWire_extended hmodifier res sub rest).trans
      (by rw [hbase, Instr.base, extendedCommand_undefined hwf])

/-- What the decoder reads off the first byte and, in the rows of two bytes, off the second. -/
theorem decodeWire_cons_ok {res : Resolution} {b : Byte} {bytes rest : List Byte} {i : Instr}
    (h : decodeWire res (b :: bytes) = .ok (i, rest)) :
    i.base = baseOf b ∧ i.modifier = modifierOf b ∧ i.sub?.toList ++ rest = bytes ∧ i.wellFormed = true := by
  have haligned := alignedBase_baseOf b
  rcases twoBits_cases (modifierOf b) with hm | hm | hm | hm
  · rw [decodeWire_getpos hm] at h
    cases h
    exact ⟨rfl, hm.symm, rfl, (Instr.wellFormed_iff _).2 ⟨haligned, nofun⟩⟩
  · rw [decodeWire_getturns hm] at h
    cases h
    exact ⟨rfl, hm.symm, rfl, (Instr.wellFormed_iff _).2 ⟨haligned, nofun⟩⟩
  · cases bytes with
    | nil =>
      rw [decodeWire_extended_nil hm] at h
      cases h
    | cons sub bytes =>
      rw [decodeWire_extended hm] at h
      cases h
      exact ⟨extendedCommand_base _ _, (extendedCommand_modifier _ _).trans hm.symm, by simp [extendedCommand_sub?],
        extendedCommand_wellFormed haligned sub⟩
  · rw [decodeWire_reserved hm] at h
    cases h
    exact ⟨rfl, hm.symm, rfl, (Instr.wellFormed_iff _).2 ⟨haligned, nofun⟩⟩

/-- Settles O8: a host byte is its base with its modifier, and what follows it is the sub-command, if any, and the
rest. -/
theorem wireEncodeOfDecodeIsTheBytes : Obligations.WireEncodeOfDecodeIsTheBytes := by
  unfold Obligations.WireEncodeOfDecodeIsTheBytes
  intro res bytes rest i h
  cases bytes with
  | nil => cases h
  | cons b bytes =>
    obtain ⟨hbase, hmodifier, hbytes, hwf⟩ := decodeWire_cons_ok h
    rw [encode, hbase, hmodifier, hostByteOf_baseOf_modifierOf, List.cons_append, hbytes]
    exact ⟨hwf, rfl⟩

/-! ### The request port -/

/-- Presenting a well-formed command and reading the port back gives the command. -/
theorem decodeRequest_encodeRequest {i : Instr} (h : i.wellFormed = true) (lines : Request) :
    decodeRequest (encodeRequest i lines) = .ok i := by
  have haligned := (alignedBase_iff _).1 (Instr.alignedBase_of_wellFormed h)
  cases i with
  | getpos base res => simp_all [decodeRequest, encodeRequest, Instr.base, Instr.modifier, Resolution.ofBit_toBit]
  | getturns base => simp_all [decodeRequest, encodeRequest, Instr.base, Instr.modifier]
  | setzero base => simp_all [decodeRequest, encodeRequest, Instr.base, Instr.modifier, Instr.sub?, extendedCommand]
  | resetdev base => simp_all [decodeRequest, encodeRequest, Instr.base, Instr.modifier, Instr.sub?, extendedCommand]
  | reservedModifier base => simp_all [decodeRequest, encodeRequest, Instr.base, Instr.modifier]
  | undefinedSubCommand base sub =>
    simp_all [decodeRequest, encodeRequest, Instr.base, Instr.modifier, Instr.sub?, extendedCommand_undefined]

/-- What decodes is well formed. -/
theorem wellFormed_of_decodeRequest {r : Request} {i : Instr} (h : decodeRequest r = .ok i) : i.wellFormed = true := by
  unfold decodeRequest at h
  split at h
  · cases h
  · rename_i haligned
    have haligned : alignedBase r.addr = true := (alignedBase_iff _).2 (not_not.1 haligned)
    split at h
    · cases h; exact (Instr.wellFormed_iff _).2 ⟨haligned, nofun⟩
    · split at h
      · cases h; exact (Instr.wellFormed_iff _).2 ⟨haligned, nofun⟩
      · split at h
        · cases h; exact extendedCommand_wellFormed haligned r.sub
        · cases h; exact (Instr.wellFormed_iff _).2 ⟨haligned, nofun⟩

/-- Settles O9, one direction from `decodeRequest_encodeRequest`, the other from what decodes. -/
theorem requestDecodeAndEncodeAgree : Obligations.RequestDecodeAndEncodeAgree := by
  unfold Obligations.RequestDecodeAndEncodeAgree
  exact ⟨fun i lines h => decodeRequest_encodeRequest h lines,
    fun r i h => ⟨wellFormed_of_decodeRequest h, encodeRequest_of_decode h⟩⟩

/-- Settles O12: a legal request decodes to one of the four, and a request that decodes to one of them is the
presentation of it, which is legal. -/
theorem legalRequestsAreTheFourSentCommands : Obligations.LegalRequestsAreTheFourSentCommands := by
  unfold Obligations.LegalRequestsAreTheFourSentCommands
  intro r
  constructor
  · intro h
    obtain ⟨haligned, -⟩ := (legal_iff r).1 h
    refine ⟨(lowBits_eq_zero_iff _).1 haligned, ?_⟩
    rcases decodeRequest_legal h with ⟨-, hd⟩ | ⟨-, hd⟩ | ⟨-, -, hd⟩ | ⟨-, -, hd⟩
    · exact ⟨_, hd, .inl ⟨_, _, rfl⟩⟩
    · exact ⟨_, hd, .inr (.inl ⟨_, rfl⟩)⟩
    · exact ⟨_, hd, .inr (.inr (.inl ⟨_, rfl⟩))⟩
    · exact ⟨_, hd, .inr (.inr (.inr ⟨_, rfl⟩))⟩
  · rintro ⟨haligned, i, hd, hi⟩
    have haligned := (lowBits_eq_zero_iff _).2 haligned
    rw [← encodeRequest_of_decode hd] at haligned ⊢
    rcases hi with ⟨base, res, rfl⟩ | ⟨base, rfl⟩ | ⟨base, rfl⟩ | ⟨base, rfl⟩
    · exact (legal_iff _).2 ⟨haligned, nofun, nofun⟩
    · exact (legal_iff _).2 ⟨haligned, nofun, nofun⟩
    · exact (legal_iff _).2 ⟨haligned, nofun, fun _ => .inl rfl⟩
    · exact (legal_iff _).2 ⟨haligned, nofun, fun _ => .inr rfl⟩

/-! ### The command map -/

/-- A table word stands for the command its bytes decode to. -/
theorem decodeTableWord_eq {nbits w : Nat} {b0 b1 : Byte} {i : Instr} {rest : List Byte}
    (hbytes : tableBytes nbits w = (b0, b1)) (hd : decodeWire .res14 [b0, b1] = .ok (i, rest)) :
    decodeTableWord nbits w = some i := by
  simp [decodeTableWord, hbytes, hd]

theorem tableBytes_one (w : BitVec 8) : tableBytes 8 w.toNat = (w, 0#8) := by
  simp [tableBytes]

theorem tableBytes_two (w : BitVec 16) : tableBytes 16 w.toNat = (w.extractLsb' 8 8, w.extractLsb' 0 8) := by
  have hfirst : BitVec.ofNat 8 (w.toNat / 256) = w.extractLsb' 8 8 := by
    rw [BitVec.extractLsb', Nat.shiftRight_eq_div_pow]
  have hsecond : BitVec.ofNat 8 w.toNat = w.extractLsb' 0 8 := rfl
  simp [tableBytes, hfirst, hsecond]

/-- The mask 0xFC keeps the base address. -/
theorem and_baseMask (b : Byte) : b &&& 0xFC#8 = baseOf b := by
  have hmask : 0xFC#8 = BitVec.allOnes 6 ++ 0#2 := rfl
  rw [baseOf_eq_append, byte_eq_append b, hmask, BitVec.and_append, BitVec.and_allOnes, BitVec.and_zero,
    BitVec.extractLsb'_append_eq_left]

/-- The mask 0x03 keeps the modifier. -/
theorem modifierOf_of_and_mask {b c : Byte} (h : b &&& 0x03#8 = c) : modifierOf b = modifierOf c := by
  have hmask : (0x03#8).extractLsb' 0 2 = BitVec.allOnes 2 := rfl
  rw [← h, modifierOf, modifierOf, BitVec.extractLsb'_and, hmask, BitVec.and_allOnes]

theorem append_eq_append_iff {v w : Nat} (a c : BitVec v) (b d : BitVec w) : a ++ b = c ++ d ↔ a = c ∧ b = d := by
  refine ⟨fun h => ⟨?_, ?_⟩, fun ⟨ha, hb⟩ => ha ▸ hb ▸ rfl⟩
  · rw [← BitVec.extractLsb'_append_eq_left (a := a) (b := b), h, BitVec.extractLsb'_append_eq_left]
  · rw [← BitVec.extractLsb'_append_eq_right (a := a) (b := b), h, BitVec.extractLsb'_append_eq_right]

/-- The mask 0x03FF fixes the modifier of the first byte and the whole second byte. -/
theorem and_rowMask_iff (w : BitVec 16) (b0 b1 : Byte) :
    w &&& 0x03FF#16 = b0 ++ b1 ↔ w.extractLsb' 8 8 &&& 0x03#8 = b0 ∧ w.extractLsb' 0 8 = b1 := by
  have hword : w = w.extractLsb' 8 8 ++ w.extractLsb' 0 8 :=
    (BitVec.extractLsb'_append_extractLsb' (w := 8) (len := 8)).symm
  have hmask : 0x03FF#16 = 0x03#8 ++ BitVec.allOnes 8 := rfl
  conv_lhs => rw [hword, hmask, BitVec.and_append, BitVec.and_allOnes]
  exact append_eq_append_iff ..

/-- The mask 0x0300 fixes the modifier of the first byte. -/
theorem and_modifierMask_iff (w : BitVec 16) (b0 : Byte) :
    w &&& 0x0300#16 = b0 ++ 0#8 ↔ w.extractLsb' 8 8 &&& 0x03#8 = b0 := by
  have hword : w = w.extractLsb' 8 8 ++ w.extractLsb' 0 8 :=
    (BitVec.extractLsb'_append_extractLsb' (w := 8) (len := 8)).symm
  have hmask : 0x0300#16 = 0x03#8 ++ 0#8 := rfl
  conv_lhs => rw [hword, hmask, BitVec.and_append, BitVec.and_zero]
  rw [append_eq_append_iff, and_iff_left rfl]

/-- Settles O10: the masks read the fields that the decoder reads. -/
theorem commandMapByMatchAndMask : Obligations.CommandMapByMatchAndMask := by
  unfold Obligations.CommandMapByMatchAndMask
  refine ⟨fun w => ?_, fun w => ?_⟩
  · have hbase : w &&& 0xFC = baseOf w := and_baseMask w
    rw [hbase]
    exact ⟨fun h => decodeTableWord_eq (tableBytes_one w) (decodeWire_getpos (modifierOf_of_and_mask h) ..),
      fun h => decodeTableWord_eq (tableBytes_one w) (decodeWire_getturns (modifierOf_of_and_mask h) ..),
      fun h => decodeTableWord_eq (tableBytes_one w) (decodeWire_reserved (modifierOf_of_and_mask h) ..)⟩
  · have hrow (hm : w.extractLsb' 8 8 &&& 0x03#8 = 0x02#8) : decodeTableWord 16 w.toNat =
        some (extendedCommand (w.extractLsb' 8 8 &&& 0xFC#8) (w.extractLsb' 0 8)) := by
      rw [and_baseMask]
      exact decodeTableWord_eq (tableBytes_two w) (decodeWire_extended (modifierOf_of_and_mask hm) ..)
    refine ⟨fun h => ?_, fun h => ?_, fun h hzero hreset => ?_⟩
    · obtain ⟨hm, hsub⟩ := (and_rowMask_iff w 0x02#8 0x5E#8).1 h
      rw [hrow hm, hsub]
      rfl
    · obtain ⟨hm, hsub⟩ := (and_rowMask_iff w 0x02#8 0x75#8).1 h
      rw [hrow hm, hsub]
      rfl
    · have hm := (and_modifierMask_iff w 0x02#8).1 h
      have hzero : w.extractLsb' 0 8 ≠ 0x5E#8 := fun hsub => hzero ((and_rowMask_iff w 0x02#8 0x5E#8).2 ⟨hm, hsub⟩)
      have hreset : w.extractLsb' 0 8 ≠ 0x75#8 := fun hsub => hreset ((and_rowMask_iff w 0x02#8 0x75#8).2 ⟨hm, hsub⟩)
      rw [hrow hm, extendedCommand, if_neg hzero, if_neg hreset]
      rfl

/-- Settles O11: each list is the encoding of its command, which decodes back (O7). -/
theorem exampleWordsOfBase54 : Obligations.ExampleWordsOfBase54 := by
  unfold Obligations.ExampleWordsOfBase54
  have hdecode (i : Instr) (res : Resolution) (hwf : i.wellFormed = true)
      (hres : ∀ base r, i = .getpos base r → r = res) : decodeWire res (encode i) = .ok (i, []) := by
    simpa using wireDecodeOfEncodeIsTheCommand i res [] hwf hres
  exact ⟨hdecode (.getpos 0x54 .res14) .res14 rfl (by simp), hdecode (.getpos 0x54 .res12) .res12 rfl (by simp),
    hdecode (.getturns 0x54) _ rfl nofun, hdecode (.setzero 0x54) _ rfl nofun, hdecode (.resetdev 0x54) _ rfl nofun,
    hdecode (.reservedModifier 0x54) _ rfl nofun, hdecode (.undefinedSubCommand 0x54 0x00) _ rfl nofun⟩

end Sys2Proof
end

section
/-! The commands in flight, in IDLE and elsewhere (43_transaction.md sections 2 and 3). -/

namespace Sys2Proof.Machine

/-! ### Waits and the sub-command -/

/-- Settles O27: each wait is one move of the framer, and the latch decides which one QUIET takes. -/
theorem waitsAreSingleSteps : Obligations.WaitsAreSingleSteps := by
  unfold Obligations.WaitsAreSingleSteps
  intro i s hf
  refine ⟨fun hs => exec_of_framerMove hf (.txSettle hs), fun hs => exec_of_framerMove hf (.rxWait hs),
    fun hs hext => ?_, fun hs hread => ?_⟩
  · rw [exec_of_framerMove hf (.quiet hs), if_pos hext]
  · rw [exec_of_framerMove hf (.quiet hs), if_neg hread]

/-- The latch of an extended command in flight holds its sub-command. -/
theorem latch_sub_of_inFlight {i : Instr} {s : State} {b : Byte} (h : s.inFlight = some i) (hb : i.sub? = some b) :
    s.latch.sub = b := by
  rcases inFlight_cases h with ⟨rfl, -⟩ | ⟨rfl, -⟩ | ⟨rfl, -, hs⟩ | ⟨rfl, -, hs⟩
  · cases hb
  · cases hb
  · exact hs.trans (Option.some.inj hb)
  · exact hs.trans (Option.some.inj hb)

/-- Settles O29, from the framer's two moves in TX_BYTE1: room in the queue, or none. -/
theorem txByte1WritesTheSubCommand : Obligations.TxByte1WritesTheSubCommand := by
  unfold Obligations.TxByte1WritesTheSubCommand
  intro i b s hf hs hi
  have hsub : s.latch.sub = b := by
    rcases hi with ⟨base, rfl, rfl⟩ | ⟨base, rfl, rfl⟩
    · exact latch_sub_of_inFlight hf rfl
    · exact latch_sub_of_inFlight hf rfl
  exact ⟨fun hroom => hsub ▸ exec_of_framerMove hf (.txByte1 hs hroom),
    fun hfull => exec_of_framerMove hf (.held (.inr hs) hfull)⟩

/-! ### RX_CHECK -/

theorem sat8_toNat (n : Nat) : (sat8 n).toNat = min n 255 := by
  rw [sat8, BitVec.toNat_ofNat]
  omega

/-- The count R162 expects for a legal request. -/
theorem expectedCount_of_legal {p : Params} {r : Request} (h : legal r = true) :
    expectedCount p r = some (if r.cmd = 0b10#2 then p.extRspBytes else 2) := by
  rcases decodeRequest_legal h with ⟨hc, -⟩ | ⟨hc, -⟩ | ⟨hc, -, -⟩ | ⟨hc, -, -⟩ <;>
    simp [expectedCount, hc, Config.readRspBytes]

/-- Settles O30: with a count other than the expected one the framer has one move. -/
theorem wrongByteCountIsReported : Obligations.WrongByteCountIsReported := by
  unfold Obligations.WrongByteCountIsReported
  intro i s hf hs hcount
  obtain ⟨-, hlegal, -⟩ := inFlight_iff.1 hf
  exact ⟨failureData, sat8 s.rxb.length, sat8_toNat _, fun _ => rfl,
    exec_of_framerMove hf (.badCount _ hs (expectedCount_of_legal hlegal) hcount)⟩

/-- Settles O31: a read's modifier is 0b00 or 0b01. -/
theorem readGoesOnWithTwoBytes : Obligations.ReadGoesOnWithTwoBytes := by
  unfold Obligations.ReadGoesOnWithTwoBytes
  intro i s hi hf hs hcount
  obtain ⟨-, hcmd⟩ := latch_of_inFlight hf
  have hread : s.latch.cmd = 0b00#2 ∨ s.latch.cmd = 0b01#2 := by
    rcases hi with ⟨base, res, rfl⟩ | ⟨base, rfl⟩
    · exact .inl hcmd
    · exact .inr hcmd
  exact exec_of_framerMove hf (.toRead hs hread hcount)

/-- Settles O32: an extended command's modifier is 0b10. -/
theorem extendedCommandCompletesOnExpectedCount : Obligations.ExtendedCommandCompletesOnExpectedCount := by
  unfold Obligations.ExtendedCommandCompletesOnExpectedCount
  intro i s hi hf hs hcount
  obtain ⟨-, hcmd⟩ := latch_of_inFlight hf
  have hext : s.latch.cmd = 0b10#2 := by rcases hi with ⟨base, rfl⟩ | ⟨base, rfl⟩ <;> exact hcmd
  exact ⟨sat8 s.rxb.length, sat8_toNat _, exec_of_framerMove hf (.extendedDone hs hext hcount)⟩

/-! ### VERIFY -/

/-- VERIFY of a `GETPOS` in flight decodes a position at the resolution of the command. -/
theorem latchedDecode_of_getpos {base : Byte} {res : Resolution} {s : State}
    (h : s.inFlight = some (.getpos base res)) : latchedDecode s.latch s.raw = decodePosition s.raw res := by
  rcases inFlight_cases h with ⟨hi, hc⟩ | ⟨hi, -⟩ | ⟨hi, -⟩ | ⟨hi, -⟩ <;> cases hi
  simp [latchedDecode, hc]

/-- VERIFY of a `GETTURNS` in flight decodes a turn count. -/
theorem latchedDecode_of_getturns {base : Byte} {s : State} (h : s.inFlight = some (.getturns base)) :
    latchedDecode s.latch s.raw = decodeTurns s.raw := by
  obtain ⟨-, hc⟩ := latch_of_inFlight h
  simp [latchedDecode, hc, Instr.modifier]

/-- Settles O34, from the framer's two moves in VERIFY and the position as arithmetic on the payload. -/
theorem getposPublishesThePosition : Obligations.GetposPublishesThePosition := by
  unfold Obligations.GetposPublishesThePosition
  intro base res s hf hs
  refine ⟨fun hpass => ⟨decodePosition s.raw res, ?_, ?_⟩, fun hfail => exec_of_framerMove hf (.corrupt hs hfail)⟩
  · cases res
    · exact decodePosition_res14_toNat s.raw
    · exact decodePosition_res12_toNat s.raw
  · rw [← latchedDecode_of_getpos hf]
    exact exec_of_framerMove hf (.verified hs hpass)

/-- Settles O35, from the framer's two moves in VERIFY and the turn count as a sign extension. -/
theorem getturnsPublishesTheTurnCount : Obligations.GetturnsPublishesTheTurnCount := by
  unfold Obligations.GetturnsPublishesTheTurnCount
  intro base s hf hs
  refine ⟨fun hpass => ?_, fun hfail => ⟨failureData, exec_of_framerMove hf (.corrupt hs hfail)⟩⟩
  rw [← decodeTurns_eq_signExtend, ← latchedDecode_of_getturns hf]
  exact exec_of_framerMove hf (.verified hs hpass)

/-! ### Commands that are not in flight -/

/-- Every command is run by `runCommand`, which says when it takes its request, when it moves and when it waits. -/
theorem exec_eq_runCommand (i : Instr) (s : State) : ∃ body, exec i s = runCommand i body s := by
  cases i <;> exact ⟨_, rfl⟩

/-- Outside IDLE a command that is not in flight changes nothing (R189). -/
theorem exec_waits {i : Instr} {s : State} (hbusy : s.st ≠ .idle) (hf : s.inFlight ≠ some i) : exec i s = .next s := by
  obtain ⟨body, hbody⟩ := exec_eq_runCommand i s
  rw [hbody, runCommand, if_neg hbusy, if_neg hf]

/-- Settles O38: it is the last of the three situations of a command. -/
theorem otherRequestsWaitForIdle : Obligations.OtherRequestsWaitForIdle := by
  unfold Obligations.OtherRequestsWaitForIdle
  exact fun i s hbusy hf => exec_waits hbusy hf

/-- Settles O40: the block's turn outside IDLE is both. -/
theorem commandsRefineTheFramer : Obligations.CommandsRefineTheFramer := by
  unfold Obligations.CommandsRefineTheFramer
  exact fun i s hf => exec_eq_framerStep hf

/-- What a command's step can do: take its request, move as the framer, or wait. -/
theorem exec_next {i : Instr} {s t : State} (h : exec i s = .next t) :
    (s.st = .idle ∧ t = takeRequest (encodeRequest i s.req) s) ∨ (s.inFlight = some i ∧ FramerMove s t) ∨ t = s := by
  by_cases hidle : s.st = .idle
  · rw [exec_idle hidle] at h
    cases h
    exact .inl ⟨hidle, rfl⟩
  · by_cases hf : s.inFlight = some i
    · rw [exec_eq_framerStep hf] at h
      exact .inr (.inl ⟨hf, framerStep_next h⟩)
    · rw [exec_waits hidle hf] at h
      cases h
      exact .inr (.inr rfl)

/-! ### Every command has a next state -/

/-- The framer has a move in every state of the invariant. -/
theorem exists_framerMove {s : State} (h : Inv s) : ∃ t, FramerMove s t := by
  obtain ⟨-, hlo, hhi, -⟩ := h.sequence
  cases hs : s.st with
  | idle => exact ⟨_, .idle hs⟩
  | preFlush => exact ⟨_, .preFlush hs⟩
  | txEnable => exact ⟨_, .txEnable hs⟩
  | txSettle => exact ⟨_, .txSettle hs⟩
  | txByte0 =>
    by_cases hroom : s.txq.length < s.params.txqCap
    · by_cases hext : s.latch.cmd = 0b10#2
      · exact ⟨_, .txByte0Extended hs hext hroom⟩
      · exact ⟨_, .txByte0Read hs hext hroom⟩
    · exact ⟨_, .held (.inl hs) (Nat.not_lt.1 hroom)⟩
  | txByte1 =>
    by_cases hroom : s.txq.length < s.params.txqCap
    · exact ⟨_, .txByte1 hs hroom⟩
    · exact ⟨_, .held (.inr hs) (Nat.not_lt.1 hroom)⟩
  | txDrain =>
    by_cases hempty : s.txq = []
    · exact ⟨_, .drained hs hempty⟩
    · exact ⟨_, .draining hs hempty⟩
  | rxEnable => exact ⟨_, .rxEnable hs⟩
  | rxWait => exact ⟨_, .rxWait hs⟩
  | rxCheck =>
    by_cases hcount : s.rxb.length = if s.latch.cmd = 0b10#2 then s.params.extRspBytes else 2
    · by_cases hext : s.latch.cmd = 0b10#2
      · exact ⟨_, .extendedDone hs hext (by rwa [if_pos hext] at hcount)⟩
      · have hread : s.latch.cmd = 0b00#2 ∨ s.latch.cmd = 0b01#2 := by
          rcases decodeRequest_legal h.latch with ⟨hc, -⟩ | ⟨hc, -⟩ | ⟨hc, -⟩ | ⟨hc, -⟩
          · exact .inl hc
          · exact .inr hc
          · exact absurd hc hext
          · exact absurd hc hext
        exact ⟨_, .toRead hs hread (by rwa [if_neg hext] at hcount)⟩
    · exact ⟨_, .badCount _ hs (expectedCount_of_legal h.latch) hcount⟩
  | rxLo =>
    obtain ⟨-, -, hlen⟩ := hlo hs
    obtain ⟨b, rest, hb⟩ := List.exists_cons_of_length_pos (Nat.zero_lt_two.trans_le hlen)
    exact ⟨_, .rxLo b rest hs hb⟩
  | rxHi =>
    obtain ⟨-, -, hlen⟩ := hhi hs
    obtain ⟨b, rest, hb⟩ := List.exists_cons_of_length_pos hlen
    exact ⟨_, .rxHi b rest hs hb⟩
  | verify =>
    cases hv : Machine.verify s.raw
    · exact ⟨_, .corrupt hs hv⟩
    · exact ⟨_, .verified hs hv⟩
  | postFlush => exact ⟨_, .postFlush hs⟩
  | quiet => exact ⟨_, .quiet hs⟩

/-- Settles O41: a command takes its request, waits, or moves as the framer, which has a move. -/
theorem everyCommandHasANextState : Obligations.EveryCommandHasANextState := by
  unfold Obligations.EveryCommandHasANextState
  intro i s h
  by_cases hidle : s.st = .idle
  · exact ⟨_, exec_idle hidle⟩
  · by_cases hf : s.inFlight = some i
    · obtain ⟨t, m⟩ := exists_framerMove h
      exact ⟨t, exec_of_framerMove hf m⟩
    · exact ⟨s, exec_waits hidle hf⟩

/-! ### Acceptance in IDLE -/

/-- Settles O36: presented at an aligned base, each of the four is a legal request. -/
theorem idleAcceptsTheFourCommands : Obligations.IdleAcceptsTheFourCommands := by
  unfold Obligations.IdleAcceptsTheFourCommands
  intro base res s hs haligned i r hi
  have haligned := (lowBits_eq_zero_iff _).2 haligned
  obtain ⟨hr, hlegal⟩ : encodeRequest i s.req = r ∧ legal r = true := by
    rcases hi with ⟨rfl, rfl⟩ | ⟨rfl, rfl⟩ | ⟨rfl, rfl⟩ | ⟨rfl, rfl⟩
    · exact ⟨by cases res <;> rfl, (legal_iff _).2 ⟨haligned, nofun, nofun⟩⟩
    · exact ⟨rfl, (legal_iff _).2 ⟨haligned, nofun, nofun⟩⟩
    · exact ⟨rfl, (legal_iff _).2 ⟨haligned, nofun, fun _ => .inl rfl⟩⟩
    · exact ⟨rfl, (legal_iff _).2 ⟨haligned, nofun, fun _ => .inr rfl⟩⟩
  exact ⟨false, by rw [exec_idle hs, hr, takeRequest_legal hlegal]⟩

/-! ### The frame of a command -/

/-- What a step writes besides `ST` and the history: the registers of `CommandsWriteTheirOwnRegistersOnly`. -/
structure WritesOwnRegisters (s t : State) : Prop where
  latch : t.latch ≠ s.latch → s.st = .idle
  dir : t.dir ≠ s.dir → s.st = .txEnable ∨ s.st = .rxEnable
  cnt : t.cnt ≠ s.cnt → s.st = .rxCheck
  raw : t.raw ≠ s.raw → s.st = .rxLo ∨ s.st = .rxHi
  result : t.resultView ≠ s.resultView ∨ t.rNew ≠ s.rNew ∨ t.written ≠ s.written →
    s.st = .idle ∨ s.st = .rxCheck ∨ s.st = .verify
  txq : t.txq ≠ s.txq → (s.st = .txByte0 ∨ s.st = .txByte1) ∧ ∃ b, t.txq = s.txq ++ [b]
  rxb : t.rxb ≠ s.rxb → (s.st = .preFlush ∨ s.st = .rxLo ∨ s.st = .rxHi ∨ s.st = .postFlush) ∧ t.rxb <:+ s.rxb
  reqValid : t.reqValid ≠ s.reqValid → s.st = .idle
  rest : t.req = s.req ∧ t.params = s.params ∧ t.agenda = s.agenda ∧ t.hostLoop = s.hostLoop ∧
    t.hostReading = s.hostReading ∧ t.hostOutcome = s.hostOutcome

theorem WritesOwnRegisters.refl (s : State) : WritesOwnRegisters s s := by
  constructor <;> simp

/-- No move of the framer writes the latch or the request port, and any other register is written by moves whose guards
name its states. -/
theorem FramerMove.writesOwnRegisters {s t : State} (m : FramerMove s t) : WritesOwnRegisters s t := by
  constructor
  case latch | reqValid => cases m <;> exact fun hwritten => absurd rfl hwritten
  case rest => cases m <;> exact ⟨rfl, rfl, rfl, rfl, rfl, rfl⟩
  all_goals cases m <;> simp_all [State.resultView]

theorem takeRequest_writesOwnRegisters (r : Request) {s : State} (h : s.st = .idle) :
    WritesOwnRegisters s (takeRequest r s) := by
  cases hl : legal r
  · rw [takeRequest_illegal hl]
    constructor <;> simp [h]
  · rw [takeRequest_legal hl]
    constructor <;> simp [h]

/-- Settles O42, for each of the three things that a command's step can do. -/
theorem commandsWriteTheirOwnRegistersOnly : Obligations.CommandsWriteTheirOwnRegistersOnly := by
  unfold Obligations.CommandsWriteTheirOwnRegistersOnly
  intro i s t h
  have w : WritesOwnRegisters s t := by
    rcases exec_next h with ⟨hidle, rfl⟩ | ⟨-, m⟩ | rfl
    · exact takeRequest_writesOwnRegisters _ hidle
    · exact m.writesOwnRegisters
    · exact .refl _
  exact ⟨w.latch, w.dir, w.cnt, w.raw, w.result, w.txq, w.rxb, w.reqValid, w.rest⟩

/-! ### The decoded command -/

/-- The block's turn in IDLE runs the command that the presented request stands for. -/
theorem blockTurn_of_request {i : Instr} {s : State} (hidle : s.st = .idle) (hv : s.reqValid = true)
    (hd : decodeRequest s.req = .ok i) : blockTurn s = exec i s := by
  rw [blockTurn_take hidle hv, exec_idle hidle, encodeRequest_of_decode hd]

/-- The block's turn outside IDLE runs the command in flight. -/
theorem blockTurn_of_inFlight {i : Instr} {s : State} (hf : s.inFlight = some i) : blockTurn s = exec i s := by
  obtain ⟨hbusy, -, -⟩ := inFlight_iff.1 hf
  rw [blockTurn_busy hbusy, exec_eq_framerStep hf]

/-- Settles O43: a step is the head of the agenda, and the block's turn runs the command that is presented or in
flight. -/
theorem stepRunsTheDecodedCommand : Obligations.StepRunsTheDecodedCommand := by
  unfold Obligations.StepRunsTheDecodedCommand
  intro i s rest ha
  exact ⟨fun hidle hv hd => (step_cons ha).trans (blockTurn_of_request (s := { s with agenda := rest }) hidle hv hd),
    fun hf => (step_cons ha).trans (blockTurn_of_inFlight (s := { s with agenda := rest }) hf),
    fun t u hu => step_cons hu⟩

end Sys2Proof.Machine
end

section
/-! What no step reads: the history and the parameters that only bind an implementation (10_state.md R39,
70_reset_and_hazards.md R250). -/

namespace Sys2Proof.Machine

/-- A state with another history and other parameters. -/
def State.withUnread (h : List Event) (p : Params) (s : State) : State := { s with history := h, params := p }

/-- Two choices of the parameters that agree on what steps read: the two capacities and the bytes an extended command
expects. -/
structure SameLimits (p q : Params) : Prop where
  txqCap : p.txqCap = q.txqCap
  rxCap : p.rxCap = q.rxCap
  extRspBytes : p.extRspBytes = q.extRspBytes

/-- The action that leads from `s` to `t` keeps the parameters, appends to the history, and does the same whatever the
history is and whatever the parameters are apart from the limits. -/
def IgnoresUnread (act : State → Result) (s t : State) : Prop :=
  t.params = s.params ∧ ∃ es, t.history = s.history ++ es ∧
    ∀ h p, SameLimits p s.params → act (s.withUnread h p) = .next (t.withUnread (h ++ es) p)

/-- An action that records nothing. -/
theorem IgnoresUnread.of_silent {act : State → Result} {s t : State} (hparams : t.params = s.params)
    (hhistory : t.history = s.history)
    (hact : ∀ h p, SameLimits p s.params → act (s.withUnread h p) = .next (t.withUnread h p)) : IgnoresUnread act s t :=
  ⟨hparams, [], by simp [hhistory], fun h p hp => by rw [List.append_nil, hact h p hp]⟩

theorem expectedCount_of_sameLimits {p q : Params} (h : SameLimits p q) (r : Request) :
    expectedCount p r = expectedCount q r := by
  rw [expectedCount, expectedCount, h.extRspBytes]

/-- The framer's guards read the limits only, and its moves write neither the parameters nor what was recorded. -/
theorem FramerMove.ignoresUnread {s t : State} (m : FramerMove s t) : IgnoresUnread framerStep s t := by
  cases m with
  | idle hs => exact .of_silent rfl rfl fun h p _ => (FramerMove.idle (s := s.withUnread h p) hs).framerStep_eq
  | preFlush hs => exact ⟨rfl, [_], rfl, fun h p _ => (FramerMove.preFlush (s := s.withUnread h p) hs).framerStep_eq⟩
  | txEnable hs => exact ⟨rfl, [_], rfl, fun h p _ => (FramerMove.txEnable (s := s.withUnread h p) hs).framerStep_eq⟩
  | txSettle hs => exact ⟨rfl, [_], rfl, fun h p _ => (FramerMove.txSettle (s := s.withUnread h p) hs).framerStep_eq⟩
  | txByte0Read hs hc room =>
    exact ⟨rfl, [_], rfl, fun h p hp =>
      (FramerMove.txByte0Read (s := s.withUnread h p) hs hc (hp.txqCap ▸ room)).framerStep_eq⟩
  | txByte0Extended hs hc room =>
    exact ⟨rfl, [_], rfl, fun h p hp =>
      (FramerMove.txByte0Extended (s := s.withUnread h p) hs hc (hp.txqCap ▸ room)).framerStep_eq⟩
  | txByte1 hs room =>
    exact ⟨rfl, [_], rfl, fun h p hp =>
      (FramerMove.txByte1 (s := s.withUnread h p) hs (hp.txqCap ▸ room)).framerStep_eq⟩
  | held hs full =>
    exact .of_silent rfl rfl fun h p hp =>
      (FramerMove.held (s := s.withUnread h p) hs (hp.txqCap ▸ full)).framerStep_eq
  | drained hs hq =>
    exact .of_silent rfl rfl fun h p _ => (FramerMove.drained (s := s.withUnread h p) hs hq).framerStep_eq
  | draining hs hq =>
    exact .of_silent rfl rfl fun h p _ => (FramerMove.draining (s := s.withUnread h p) hs hq).framerStep_eq
  | rxEnable hs => exact ⟨rfl, [_], rfl, fun h p _ => (FramerMove.rxEnable (s := s.withUnread h p) hs).framerStep_eq⟩
  | rxWait hs => exact ⟨rfl, [_], rfl, fun h p _ => (FramerMove.rxWait (s := s.withUnread h p) hs).framerStep_eq⟩
  | badCount n hs hn ne =>
    exact ⟨rfl, [_], rfl, fun h p hp => (FramerMove.badCount (s := s.withUnread h p) n hs
      ((expectedCount_of_sameLimits hp s.latch).trans hn) ne).framerStep_eq⟩
  | extendedDone hs hc hn =>
    exact ⟨rfl, [_], rfl, fun h p hp =>
      (FramerMove.extendedDone (s := s.withUnread h p) hs hc (hn.trans hp.extRspBytes.symm)).framerStep_eq⟩
  | toRead hs hc hn =>
    exact .of_silent rfl rfl fun h p _ => (FramerMove.toRead (s := s.withUnread h p) hs hc hn).framerStep_eq
  | rxLo b rest hs hb =>
    exact ⟨rfl, [_], rfl, fun h p _ => (FramerMove.rxLo (s := s.withUnread h p) b rest hs hb).framerStep_eq⟩
  | rxHi b rest hs hb =>
    exact ⟨rfl, [_], rfl, fun h p _ => (FramerMove.rxHi (s := s.withUnread h p) b rest hs hb).framerStep_eq⟩
  | verified hs hv =>
    exact ⟨rfl, [_], rfl, fun h p _ => (FramerMove.verified (s := s.withUnread h p) hs hv).framerStep_eq⟩
  | corrupt hs hv =>
    exact ⟨rfl, [_], rfl, fun h p _ => (FramerMove.corrupt (s := s.withUnread h p) hs hv).framerStep_eq⟩
  | postFlush hs => exact ⟨rfl, [_], rfl, fun h p _ => (FramerMove.postFlush (s := s.withUnread h p) hs).framerStep_eq⟩
  | quiet hs => exact ⟨rfl, [_], rfl, fun h p _ => (FramerMove.quiet (s := s.withUnread h p) hs).framerStep_eq⟩

theorem blockTurn_ignoresUnread {s t : State} (ht : blockTurn s = .next t) : IgnoresUnread blockTurn s t := by
  by_cases hidle : s.st = .idle
  · cases hv : s.reqValid
    · rw [blockTurn_rest hidle hv] at ht
      cases ht
      exact .of_silent rfl rfl fun h p _ => blockTurn_rest (s := s.withUnread h p) hidle hv
    · rw [blockTurn_take hidle hv] at ht
      cases ht
      have htake (h p) : blockTurn (s.withUnread h p) = .next (takeRequest s.req (s.withUnread h p)) :=
        blockTurn_take (s := s.withUnread h p) hidle hv
      cases hl : legal s.req
      · rw [takeRequest_illegal hl]
        exact ⟨rfl, [_, _], rfl, fun h p _ => by rw [htake, takeRequest_illegal hl]; rfl⟩
      · rw [takeRequest_legal hl]
        exact ⟨rfl, [_], rfl, fun h p _ => by rw [htake, takeRequest_legal hl]; rfl⟩
  · rw [blockTurn_busy hidle] at ht
    obtain ⟨hparams, es, hh, hact⟩ := (framerStep_next ht).ignoresUnread
    exact ⟨hparams, es, hh, fun h p hp => (blockTurn_busy (s := s.withUnread h p) hidle).trans (hact h p hp)⟩

theorem uartStep_ignoresUnread (s : State) : IgnoresUnread (takeTurn .uart) s (uartStep s) := by
  cases hq : s.txq with
  | nil =>
    rw [uartStep_nil hq]
    exact .of_silent rfl rfl fun h p _ => congrArg Host.Outcome.next (uartStep_nil (s := s.withUnread h p) hq)
  | cons b q =>
    rw [uartStep_cons hq]
    exact ⟨rfl, [_], rfl, fun h p _ => congrArg Host.Outcome.next (uartStep_cons (s := s.withUnread h p) hq)⟩

theorem lineStep_ignoresUnread (b : Byte) (s : State) : IgnoresUnread (takeTurn (.line b)) s (lineStep b s) := by
  by_cases hroom : s.rxb.length < s.params.rxCap
  · rw [lineStep_room b hroom]
    exact ⟨rfl, [_], rfl, fun h p hp =>
      congrArg Host.Outcome.next (lineStep_room (s := s.withUnread h p) b (hp.rxCap ▸ hroom))⟩
  · have hfull := Nat.not_lt.1 hroom
    rw [lineStep_full b hfull]
    exact ⟨rfl, [_], rfl, fun h p hp =>
      congrArg Host.Outcome.next (lineStep_full (s := s.withUnread h p) b (hp.rxCap ▸ hfull))⟩

/-- An action that the host takes outside a loop ignores what its effect ignores. -/
theorem hostAction_ignoresUnread {act : State → Result} {s t : State}
    (hact : act s = .next t → IgnoresUnread act s t) (ht : hostAction act s = .next t) :
    IgnoresUnread (hostAction act) s t := by
  rcases Option.eq_none_or_eq_some s.hostLoop with hl | ⟨l, hl⟩
  · rw [hostAction_of_none hl] at ht
    obtain ⟨hparams, es, hh, hsame⟩ := hact ht
    exact ⟨hparams, es, hh, fun h p hp => (hostAction_of_none (s := s.withUnread h p) hl).trans (hsame h p hp)⟩
  · rw [hostAction_of_some hl] at ht
    cases ht
    exact .of_silent rfl rfl fun h p _ => hostAction_of_some (s := s.withUnread h p) hl

theorem hostLoopStep_withUnread (h : List Event) (p : Params) (s : State) :
    hostLoopStep (s.withUnread h p) = (hostLoopStep s).withUnread h p := by
  rcases Option.eq_none_or_eq_some s.hostLoop with hl | ⟨l, hl⟩
  · rw [hostLoopStep_none hl]
    exact hostLoopStep_none (s := s.withUnread h p) hl
  · cases hphase : l.phase
    · rw [hostLoopStep_request hl hphase, hostLoopStep_request (s := s.withUnread h p) hl hphase]
      by_cases hidle : s.st = .idle
      · rw [loopPresent_ready l hidle]
        exact loopPresent_ready (s := s.withUnread h p) l hidle
      · rw [loopPresent_waits l hidle]
        exact loopPresent_waits (s := s.withUnread h p) l hidle
    · rw [hostLoopStep_await hl hphase, hostLoopStep_await (s := s.withUnread h p) hl hphase]
      by_cases hready : s.reqValid = false ∧ s.rNew = true
      · obtain ⟨hv, hn⟩ := hready
        rcases Option.eq_none_or_eq_some (retryDecision s.resultView l.attempts l.maxAttempts) with hd | ⟨out, hd⟩
        · rw [loopAwait_again hv hn hd]
          exact loopAwait_again (s := s.withUnread h p) hv hn hd
        · rw [loopAwait_return hv hn hd]
          exact loopAwait_return (s := s.withUnread h p) hv hn hd
      · rw [loopAwait_not_ready l hready]
        exact loopAwait_not_ready (s := s.withUnread h p) l hready

theorem takeTurn_ignoresUnread {turn : Turn} {s t : State} (ht : takeTurn turn s = .next t) :
    IgnoresUnread (takeTurn turn) s t := by
  cases turn with
  | block => exact blockTurn_ignoresUnread ht
  | uart => cases ht; exact uartStep_ignoresUnread s
  | line b => cases ht; exact lineStep_ignoresUnread b s
  | present r =>
    exact hostAction_ignoresUnread (fun h => by cases h; exact .of_silent rfl rfl fun _ _ _ => rfl) ht
  | withdraw =>
    exact hostAction_ignoresUnread (fun h => by cases h; exact .of_silent rfl rfl fun _ _ _ => rfl) ht
  | readResult =>
    refine hostAction_ignoresUnread (fun hread => ?_) ht
    cases hw : s.written
    · rw [readResult_unwritten hw] at hread
      cases hread
    · rw [readResult_written hw] at hread
      cases hread
      exact .of_silent rfl rfl fun h p _ => readResult_written (s := s.withUnread h p) hw
  | call c n =>
    refine hostAction_ignoresUnread (fun hstart => ?_) ht
    rcases Nat.eq_zero_or_pos n with rfl | hn
    · cases hstart
    · rw [startLoop_pos hn] at hstart
      cases hstart
      exact .of_silent rfl rfl fun h p _ => startLoop_pos hn c (s.withUnread h p)
  | hostLoop =>
    cases ht
    have hb := (hostLoopStep_move s).sameBlock
    exact .of_silent hb.params hb.history fun h p _ => congrArg Host.Outcome.next (hostLoopStep_withUnread h p s)
  | rst => cases ht; exact ⟨rfl, [_], rfl, fun _ _ _ => rfl⟩

/-- What enables the block's step: its state, the request, and where the transmit queue stands. -/
theorem blockEnabled_congr {s t : State} (hst : s.st = t.st) (hv : s.reqValid = t.reqValid) (hq : s.txq = t.txq)
    (hcap : s.params.txqCap = t.params.txqCap) : s.blockEnabled = t.blockEnabled := by
  rw [State.blockEnabled, State.blockEnabled, State.txbe, State.txbe, State.txc, State.txc, hst, hv, hq, hcap]

/-- What decides whose turn it is. -/
theorem nextTurn_congr {s t : State} (hst : s.st = t.st) (hv : s.reqValid = t.reqValid) (hq : s.txq = t.txq)
    (hcap : s.params.txqCap = t.params.txqCap) (hl : s.hostLoop = t.hostLoop) (ha : s.agenda = t.agenda) :
    s.nextTurn = t.nextTurn := by
  rw [State.nextTurn, State.nextTurn, State.defaultTurn, State.defaultTurn, blockEnabled_congr hst hv hq hcap, hq, hl,
    ha]

theorem step_ignoresUnread {s t : State} (ht : step s = .next t) : IgnoresUnread step s t := by
  obtain ⟨hparams, es, hh, hact⟩ := takeTurn_ignoresUnread ht
  refine ⟨hparams, es, hh, fun h p hp => ?_⟩
  rw [step, nextTurn_congr (s := s.withUnread h p) (t := s) rfl rfl rfl hp.txqCap rfl rfl]
  exact hact h p hp

/-- Settles O56: a step with another history, the parameters kept. -/
theorem historyIsAppendedToAndNeverRead : Obligations.HistoryIsAppendedToAndNeverRead := by
  unfold Obligations.HistoryIsAppendedToAndNeverRead
  intro s t hstep
  obtain ⟨hparams, es, hh, hact⟩ := step_ignoresUnread hstep
  refine ⟨es, hh, fun h => (hact h s.params ⟨rfl, rfl, rfl⟩).trans ?_⟩
  rw [← hparams]
  rfl

/-- Settles O57: a step with other parameters, the history kept. -/
theorem timingParametersAreNeverRead : Obligations.TimingParametersAreNeverRead := by
  unfold Obligations.TimingParametersAreNeverRead
  intro s t p htx hrx hext hstep
  obtain ⟨hparams, es, hh, hact⟩ := step_ignoresUnread hstep
  refine ⟨hparams, (hact s.history p ⟨htx, hrx, hext⟩).trans ?_⟩
  rw [← hh]
  rfl

end Sys2Proof.Machine
end

section
/-! What a transaction does depends on its request and the environment only (10_state.md R29). -/

namespace Sys2Proof.Machine

/-- The action leads from `s` to `s'`, and from `t` to a state that agrees with `s'` again, with the same events. -/
def StepsAlike (act : State → Result) (s s' t : State) : Prop :=
  ∃ (t' : State) (es : List Event), act t = .next t' ∧ SameTransaction s' t' ∧
    s'.history = s.history ++ es ∧ t'.history = t.history ++ es

/-- Actions that record nothing. -/
theorem StepsAlike.of_silent {act : State → Result} {s s' t t' : State} (hact : act t = .next t')
    (hsame : SameTransaction s' t') (hs : s'.history = s.history) (ht : t'.history = t.history) :
    StepsAlike act s s' t :=
  ⟨t', [], hact, hsame, by simp [hs], by simp [ht]⟩

/-- Moves of the framer that record one event. -/
theorem StepsAlike.of_move {s s' t t' : State} {e : Event} (m : FramerMove t t') (hsame : SameTransaction s' t')
    (hs : s'.history = s.history ++ [e]) (ht : t'.history = t.history ++ [e]) : StepsAlike framerStep s s' t :=
  ⟨t', [e], m.framerStep_eq, hsame, hs, ht⟩

theorem low_withLowByte (raw : Word) (b : Byte) : (withLowByte raw b).extractLsb' 0 8 = b :=
  BitVec.extractLsb'_append_eq_right

/-- Inside a transaction the framer's guards read what the states agree on, and what a move writes it computes from
that. -/
theorem FramerMove.stepsAlike {s s' t : State} (m : FramerMove s s') (hbusy : s.st ≠ .idle) (h : SameTransaction s t) :
    StepsAlike framerStep s s' t := by
  obtain ⟨st, dir, latch, cnt, raw, rStatus, rOk, rData, rCount, rNew, written, txq, rxb, history, reqValid, req,
    hostLoop, hostReading, hostOutcome, params, agenda⟩ := t
  have hsame := h
  obtain ⟨rfl, rfl, rfl, rfl, rfl, rfl, rfl, rfl, rfl, hlatch, hcnt, hlow, hraw, hresult⟩ := h
  obtain rfl := hlatch hbusy
  cases m with
  | idle hs => exact absurd hs hbusy
  | held hs full => exact .of_silent (FramerMove.framerStep_eq (.held hs full)) hsame rfl rfl
  | draining hs hq => exact .of_silent (FramerMove.framerStep_eq (.draining hs hq)) hsame rfl rfl
  | drained hs hq => exact .of_silent (FramerMove.framerStep_eq (.drained hs hq)) (by constructor <;> simp) rfl rfl
  | toRead hs hc hn => exact .of_silent (FramerMove.framerStep_eq (.toRead hs hc hn)) (by constructor <;> simp) rfl rfl
  | preFlush hs => exact .of_move (.preFlush hs) (by constructor <;> simp) rfl rfl
  | txEnable hs => exact .of_move (.txEnable hs) (by constructor <;> simp) rfl rfl
  | txSettle hs => exact .of_move (.txSettle hs) (by constructor <;> simp) rfl rfl
  | txByte0Read hs hc room =>
    exact .of_move (.txByte0Read hs hc room) (by constructor <;> simp) rfl rfl
  | txByte0Extended hs hc room =>
    exact .of_move (.txByte0Extended hs hc room) (by constructor <;> simp) rfl rfl
  | txByte1 hs room => exact .of_move (.txByte1 hs room) (by constructor <;> simp) rfl rfl
  | rxEnable hs => exact .of_move (.rxEnable hs) (by constructor <;> simp) rfl rfl
  | rxWait hs => exact .of_move (.rxWait hs) (by constructor <;> simp) rfl rfl
  | badCount n hs hn ne =>
    exact .of_move (.badCount n hs hn ne) (by constructor <;> simp [State.resultView]) rfl rfl
  | extendedDone hs hc hn =>
    exact .of_move (.extendedDone hs hc hn) (by constructor <;> simp [State.resultView]) rfl rfl
  | rxLo b rest hs hb =>
    refine .of_move (.rxLo b rest hs hb) ?_ rfl rfl
    obtain rfl := hcnt (.inl hs)
    constructor <;> simp [low_withLowByte]
  | rxHi b rest hs hb =>
    refine .of_move (.rxHi b rest hs hb) ?_ rfl rfl
    obtain rfl := hcnt (.inr (.inl hs))
    have hword : withHighByte s.raw b = withHighByte raw b := congrArg (wordOf b) (hlow hs)
    constructor <;> simp [hword]
  | verified hs hv =>
    obtain rfl := hraw hs
    obtain rfl := hcnt (.inr (.inr hs))
    exact .of_move (.verified hs hv) (by constructor <;> simp [State.resultView]) rfl rfl
  | corrupt hs hv =>
    obtain rfl := hraw hs
    obtain rfl := hcnt (.inr (.inr hs))
    exact .of_move (.corrupt hs hv) (by constructor <;> simp [State.resultView]) rfl rfl
  | postFlush hs =>
    refine .of_move (.postFlush hs) ?_ rfl rfl
    exact ⟨rfl, rfl, rfl, rfl, rfl, rfl, rfl, rfl, rfl, fun _ => rfl, by simp, by simp, by simp,
      fun _ => hresult (.inl hs)⟩
  | quiet hs => exact .of_move (.quiet hs) (by constructor <;> simp) rfl rfl

theorem blockTurn_stepsAlike {s s' t : State} (h : SameTransaction s t) (hs : blockTurn s = .next s') :
    StepsAlike blockTurn s s' t := by
  by_cases hidle : s.st = .idle
  · have hidle' : t.st = .idle := h.st ▸ hidle
    cases hv : s.reqValid
    · rw [blockTurn_rest hidle hv] at hs
      cases hs
      exact .of_silent (blockTurn_rest hidle' (h.reqValid ▸ hv)) h rfl rfl
    · rw [blockTurn_take hidle hv] at hs
      cases hs
      have ht : blockTurn t = .next (takeRequest s.req t) := by rw [blockTurn_take hidle' (h.reqValid ▸ hv), h.req]
      obtain ⟨hst, hdir, htxq, hrxb, -, hreq, hparams, hagenda, hloop, -, -, -, -, -⟩ := h
      cases hl : legal s.req
      · refine ⟨_, [.reject s.req, .publish .illegalRequest failureData 0], ht, ?_, ?_, ?_⟩
        · rw [takeRequest_illegal hl, takeRequest_illegal hl]
          constructor <;> simp [*]
        · rw [takeRequest_illegal hl]
        · rw [takeRequest_illegal hl]
      · refine ⟨_, [.accept s.req], ht, ?_, ?_, ?_⟩
        · rw [takeRequest_legal hl, takeRequest_legal hl]
          constructor <;> simp [*]
        · rw [takeRequest_legal hl]
        · rw [takeRequest_legal hl]
  · rw [blockTurn_busy hidle] at hs
    obtain ⟨t', es, ht, hsame⟩ := (framerStep_next hs).stepsAlike hidle h
    exact ⟨t', es, by rw [blockTurn_busy (h.st ▸ hidle), ht], hsame⟩

/-! ### The other agents -/

theorem uartStep_stepsAlike {s t : State} (h : SameTransaction s t) :
    StepsAlike (takeTurn .uart) s (uartStep s) t := by
  cases hq : s.txq with
  | nil =>
    rw [uartStep_nil hq]
    exact .of_silent (congrArg Host.Outcome.next (uartStep_nil (h.txq ▸ hq))) h rfl rfl
  | cons b q =>
    rw [uartStep_cons hq]
    refine ⟨_, [.wire b (decide (s.dir = .transmit))], congrArg Host.Outcome.next (uartStep_cons (h.txq ▸ hq)), ?_, rfl,
      by rw [h.dir]⟩
    exact { h with txq := rfl }

theorem lineStep_stepsAlike (b : Byte) {s t : State} (h : SameTransaction s t) :
    StepsAlike (takeTurn (.line b)) s (lineStep b s) t := by
  by_cases hroom : s.rxb.length < s.params.rxCap
  · have hroom' : t.rxb.length < t.params.rxCap := h.rxb ▸ h.params ▸ hroom
    rw [lineStep_room b hroom]
    exact ⟨_, [_], congrArg Host.Outcome.next (lineStep_room b hroom'), { h with rxb := congrArg (· ++ [b]) h.rxb },
      rfl, rfl⟩
  · have hfull := Nat.not_lt.1 hroom
    rw [lineStep_full b hfull]
    exact ⟨_, [_], congrArg Host.Outcome.next (lineStep_full b (h.rxb ▸ h.params ▸ hfull)), { h with }, rfl, rfl⟩

theorem hostAction_stepsAlike {act : State → Result} {s s' t : State} (h : SameTransaction s t)
    (hact : s.hostLoop = none → act s = .next s' → StepsAlike act s s' t) (hs : hostAction act s = .next s') :
    StepsAlike (hostAction act) s s' t := by
  rcases Option.eq_none_or_eq_some s.hostLoop with hl | ⟨l, hl⟩
  · rw [hostAction_of_none hl] at hs
    obtain ⟨t', es, ht, hsame⟩ := hact hl hs
    exact ⟨t', es, by rw [hostAction_of_none (h.hostLoop ▸ hl), ht], hsame⟩
  · rw [hostAction_of_some hl] at hs
    cases hs
    exact .of_silent (hostAction_of_some (h.hostLoop ▸ hl)) h rfl rfl

/-- What a host that looks at the result port sees. -/
def SameResult (s t : State) : Prop := s.resultView = t.resultView ∧ s.rNew = t.rNew ∧ s.written = t.written

theorem loopPresent_stepsAlike {s t : State} {l : HostLoop} (h : SameTransaction s t) :
    StepsAlike (fun u => .next (loopPresent l u)) s (loopPresent l s) t := by
  by_cases hidle : s.st = .idle
  · rw [loopPresent_ready l hidle]
    refine .of_silent (congrArg Host.Outcome.next (loopPresent_ready l (h.st ▸ hidle))) ?_ rfl rfl
    exact { h with reqValid := rfl, req := congrArg (encodeRequest l.call.command) h.req, hostLoop := rfl }
  · rw [loopPresent_waits l hidle]
    exact .of_silent (congrArg Host.Outcome.next (loopPresent_waits l (h.st ▸ hidle))) h rfl rfl

theorem loopAwait_stepsAlike {s t : State} {l : HostLoop} (h : SameTransaction s t) (hresult : SameResult s t) :
    StepsAlike (fun u => .next (loopAwait l u)) s (loopAwait l s) t := by
  obtain ⟨hview, hnew, -⟩ := hresult
  by_cases hready : s.reqValid = false ∧ s.rNew = true
  · obtain ⟨hv, hn⟩ := hready
    have hv' : t.reqValid = false := h.reqValid ▸ hv
    have hn' : t.rNew = true := hnew ▸ hn
    rcases Option.eq_none_or_eq_some (retryDecision s.resultView l.attempts l.maxAttempts) with hd | ⟨out, hd⟩
    · rw [loopAwait_again hv hn hd]
      exact .of_silent (congrArg Host.Outcome.next (loopAwait_again hv' hn' (hview ▸ hd))) { h with hostLoop := rfl }
        rfl rfl
    · rw [loopAwait_return hv hn hd]
      exact .of_silent (congrArg Host.Outcome.next (loopAwait_return hv' hn' (hview ▸ hd))) { h with hostLoop := rfl }
        rfl rfl
  · rw [loopAwait_not_ready l hready]
    exact .of_silent (congrArg Host.Outcome.next (loopAwait_not_ready l (h.reqValid ▸ hnew ▸ hready))) h rfl rfl

theorem hostLoopStep_stepsAlike {s t : State} (h : SameTransaction s t)
    (hresult : (∃ l, s.hostLoop = some l ∧ l.phase = .await) → SameResult s t) :
    StepsAlike (takeTurn .hostLoop) s (hostLoopStep s) t := by
  rcases Option.eq_none_or_eq_some s.hostLoop with hl | ⟨l, hl⟩
  · rw [hostLoopStep_none hl]
    exact .of_silent (congrArg Host.Outcome.next (hostLoopStep_none (h.hostLoop ▸ hl))) h rfl rfl
  · have hl' : t.hostLoop = some l := h.hostLoop ▸ hl
    cases hphase : l.phase
    · rw [hostLoopStep_request hl hphase]
      obtain ⟨t', es, ht, hsame⟩ := loopPresent_stepsAlike (l := l) h
      exact ⟨t', es, by rw [takeTurn_hostLoop, hostLoopStep_request hl' hphase]; exact ht, hsame⟩
    · rw [hostLoopStep_await hl hphase]
      obtain ⟨t', es, ht, hsame⟩ := loopAwait_stepsAlike (l := l) h (hresult ⟨l, hl, hphase⟩)
      exact ⟨t', es, by rw [takeTurn_hostLoop, hostLoopStep_await hl' hphase]; exact ht, hsame⟩

theorem takeTurn_stepsAlike {turn : Turn} {s s' t : State} (h : SameTransaction s t)
    (hresult : (turn = .readResult ∧ s.hostLoop = none) ∨
      (turn = .hostLoop ∧ ∃ l, s.hostLoop = some l ∧ l.phase = .await) → SameResult s t)
    (hs : takeTurn turn s = .next s') : StepsAlike (takeTurn turn) s s' t := by
  cases turn with
  | block => exact blockTurn_stepsAlike h hs
  | uart => cases hs; exact uartStep_stepsAlike h
  | line b => cases hs; exact lineStep_stepsAlike b h
  | present r =>
    refine hostAction_stepsAlike h (fun _ hact => ?_) hs
    cases hact
    exact .of_silent rfl { h with reqValid := rfl, req := rfl } rfl rfl
  | withdraw =>
    refine hostAction_stepsAlike h (fun _ hact => ?_) hs
    cases hact
    exact .of_silent rfl { h with reqValid := rfl } rfl rfl
  | readResult =>
    refine hostAction_stepsAlike h (fun hl hread => ?_) hs
    obtain ⟨-, -, hwritten⟩ := hresult (.inl ⟨rfl, hl⟩)
    cases hw : s.written
    · rw [readResult_unwritten hw] at hread
      cases hread
    · rw [readResult_written hw] at hread
      cases hread
      exact .of_silent (readResult_written (hwritten ▸ hw)) { h with } rfl rfl
  | call c n =>
    refine hostAction_stepsAlike h (fun _ hstart => ?_) hs
    rcases Nat.eq_zero_or_pos n with rfl | hn
    · cases hstart
    · rw [startLoop_pos hn] at hstart
      cases hstart
      exact .of_silent (startLoop_pos hn c t) { h with hostLoop := rfl } rfl rfl
  | hostLoop => cases hs; exact hostLoopStep_stepsAlike h fun hl => hresult (.inr ⟨rfl, hl⟩)
  | rst =>
    cases hs
    obtain ⟨-, -, htxq, hrxb, hv, hreq, hparams, hagenda, hloop, -, -, -, -, -⟩ := h
    exact ⟨_, [.reset], rfl, by constructor <;> simp [*], rfl, rfl⟩

/-- Settles O50: the same turn is next, and each turn's action reads what the two states agree on. -/
theorem transactionsDependOnRequestAndEnvironmentOnly : Obligations.TransactionsDependOnRequestAndEnvironmentOnly := by
  unfold Obligations.TransactionsDependOnRequestAndEnvironmentOnly
  intro s s' t h hresult hstep
  have hturn : t.nextTurn = s.nextTurn :=
    nextTurn_congr h.st.symm h.reqValid.symm h.txq.symm (congrArg Params.txqCap h.params).symm h.hostLoop.symm
      h.agenda.symm
  have hpop : SameTransaction s.popTurn t.popTurn := { h with agenda := congrArg List.tail h.agenda }
  rw [step, hturn]
  exact takeTurn_stepsAlike (s := s.popTurn) hpop hresult hstep

end Sys2Proof.Machine
end

section
/-! Every transaction returns to IDLE (43_transaction.md R188): a measure that no turn raises and that the turn of the
agent to move lowers. -/

namespace Sys2Proof.Machine

/-! ### The measure -/

/-- How far a state is from IDLE: the block steps of the longest way there, counting a byte to be written twice, since
the UART has to clock it out too. -/
def Fsm.rank : Fsm → Nat
  | .idle => 0
  | .quiet => 1
  | .postFlush => 2
  | .verify => 3
  | .rxHi => 4
  | .rxLo => 5
  | .rxCheck => 6
  | .rxWait => 7
  | .rxEnable => 8
  | .txDrain => 9
  | .txByte1 => 11
  | .txByte0 => 13
  | .txSettle => 14
  | .txEnable => 15
  | .preFlush => 16

theorem Fsm.rank_le (x : Fsm) : x.rank ≤ 16 := by cases x <;> decide

theorem Fsm.eq_idle_of_rank_eq_zero {x : Fsm} (h : x.rank = 0) : x = .idle := by
  cases x with
  | idle => rfl
  | _ => cases h

/-- The block and UART steps that a transaction still needs, at most. -/
def State.remaining (s : State) : Nat := s.st.rank + s.txq.length

/-- A move of the framer lowers the measure, unless the block holds. -/
theorem FramerMove.remaining_lt_or_held {s t : State} (m : FramerMove s t) (hbusy : s.st ≠ .idle) :
    t.remaining < s.remaining ∨ t = s ∧ s.blockEnabled = false := by
  cases m with
  | idle hs => exact absurd hs hbusy
  | held hs full =>
    refine .inr ⟨rfl, ?_⟩
    rcases hs with hs | hs <;> simp [State.blockEnabled, State.txbe, hs, full]
  | draining hs hq => exact .inr ⟨rfl, by simp [State.blockEnabled, State.txc, hs, hq]⟩
  | txByte0Read | txByte0Extended | txByte1 => left; simp_all [State.remaining, Fsm.rank]; omega
  | _ => left; simp_all [State.remaining, Fsm.rank]

/-- No step writes a parameter. -/
theorem TurnCase.params_eq {turn : Turn} {s t : State} (m : TurnCase s turn t) : t.params = s.params := by
  cases m with
  | framer _ m => cases m <;> rfl
  | host m => exact m.sameBlock.params
  | accepted | rejected | clocked | arrived | overrun | still | reset => rfl

/-- Inside a transaction a turn ends it, lowers the measure, or leaves the FSM and the transmit queue where they are. -/
theorem TurnCase.progress {turn : Turn} {s t : State} (m : TurnCase s turn t) (hbusy : s.st ≠ .idle) :
    t.st = .idle ∨ t.remaining < s.remaining ∨ t.st = s.st ∧ t.txq = s.txq := by
  cases m with
  | accepted hs | rejected hs => exact absurd hs hbusy
  | framer _ m =>
    rcases m.remaining_lt_or_held hbusy with hlt | ⟨rfl, -⟩
    · exact .inr (.inl hlt)
    · exact .inr (.inr ⟨rfl, rfl⟩)
  | clocked b q hq => exact .inr (.inl (by simp [State.remaining, hq]))
  | host m => exact .inr (.inr ⟨m.sameBlock.st, m.sameBlock.txq⟩)
  | reset => exact .inl rfl
  | arrived | overrun | still => exact .inr (.inr ⟨rfl, rfl⟩)

/-- Inside a transaction the measure never rises. -/
theorem TurnCase.idle_or_remaining_le {turn : Turn} {s t : State} (m : TurnCase s turn t) (hbusy : s.st ≠ .idle) :
    t.st = .idle ∨ t.remaining ≤ s.remaining := by
  rcases m.progress hbusy with hidle | hlt | ⟨hst, hq⟩
  · exact .inl hidle
  · exact .inr hlt.le
  · exact .inr (by rw [State.remaining, State.remaining, hst, hq])

/-! ### The agent to move -/

/-- The agent whose step brings a transaction on: the block, or, while the block holds, the UART. -/
def State.mover (s : State) : Agent := if s.blockEnabled then .block else .uart

/-- Where the block holds, there is a byte to clock out. -/
theorem txq_ne_nil_of_held {s : State} (hcap : 1 ≤ s.params.txqCap) (hbusy : s.st ≠ .idle)
    (hheld : s.blockEnabled = false) : s.txq ≠ [] := by
  intro hq
  have hroom : s.txbe = true := by simpa [State.txbe, hq] using Nat.lt_of_succ_le hcap
  have hempty : s.txc = true := by simp [State.txc, hq]
  cases hs : s.st <;> simp_all [State.blockEnabled]

/-- Inside a transaction the agent to move depends on the FSM and the transmit queue only. -/
theorem mover_congr {s t : State} (hbusy : s.st ≠ .idle) (hst : s.st = t.st) (hq : s.txq = t.txq)
    (hcap : s.params.txqCap = t.params.txqCap) : s.mover = t.mover := by
  have henabled : s.blockEnabled = t.blockEnabled := by
    rw [State.blockEnabled, State.blockEnabled, State.txbe, State.txbe, State.txc, State.txc, hst, hq, hcap]
    cases ht : t.st with
    | idle => exact absurd (hst.trans ht) hbusy
    | _ => rfl
  rw [State.mover, State.mover, henabled]

theorem mover_enabled {s : State} (hcap : 1 ≤ s.params.txqCap) (hbusy : s.st ≠ .idle) :
    s.mover.enabled s = true := by
  cases he : s.blockEnabled
  · have hq := txq_ne_nil_of_held hcap hbusy he
    simp [State.mover, he, Agent.enabled, State.txc, hq]
  · simp [State.mover, he, Agent.enabled]

/-- A turn of the agent to move ends the transaction or lowers the measure. -/
theorem TurnCase.remaining_lt_of_mover {turn : Turn} {s t : State} (m : TurnCase s turn t)
    (hcap : 1 ≤ s.params.txqCap) (hbusy : s.st ≠ .idle) (hserves : turn.serves = some s.mover) :
    t.st = .idle ∨ t.remaining < s.remaining := by
  have henabled := mover_enabled hcap hbusy
  cases m with
  | accepted hs | rejected hs => exact absurd hs hbusy
  | framer _ m =>
    rcases m.remaining_lt_or_held hbusy with hlt | ⟨-, hheld⟩
    · exact .inr hlt
    · simp [Turn.serves, State.mover, hheld] at hserves
  | clocked b q hq => exact .inr (by simp [State.remaining, hq])
  | reset => exact .inl rfl
  | still h =>
    rcases h with ⟨-, hs⟩ | ⟨rfl, hq⟩
    · exact absurd hs hbusy
    · rw [← Option.some.inj hserves] at henabled
      simp [Agent.enabled, State.txc, hq] at henabled
  | host _ h =>
    rcases h with h | rfl
    · simp [h] at hserves
    · unfold State.mover at hserves
      split at hserves <;> cases hserves
  | arrived | overrun =>
    unfold State.mover at hserves
    split at hserves <;> cases hserves

/-- Inside a transaction the default turn is that of the agent to move. -/
theorem defaultTurn_serves {s : State} (hcap : 1 ≤ s.params.txqCap) (hbusy : s.st ≠ .idle) :
    s.defaultTurn.serves = some s.mover := by
  cases he : s.blockEnabled
  · have hq := txq_ne_nil_of_held hcap hbusy he
    simp [State.defaultTurn, State.mover, he, hq, Turn.serves]
  · simp [State.defaultTurn, State.mover, he, Turn.serves]

/-! ### Within a bound, over any agenda -/

/-- None of the turns planned is a host turn that faults. -/
def AgendaRuns (s : State) : Prop := (∀ c, Turn.call c 0 ∉ s.agenda) ∧ (Turn.readResult ∈ s.agenda → s.written = true)

theorem exists_hostAction {act : State → Result} {s : State} (h : ∃ t, act s = .next t) :
    ∃ t, hostAction act s = .next t := by
  rcases Option.eq_none_or_eq_some s.hostLoop with hl | ⟨l, hl⟩
  · rwa [hostAction_of_none hl]
  · exact ⟨s, hostAction_of_some hl⟩

/-- Every turn but the two host turns that fault has a next state in every state of the invariant. -/
theorem exists_takeTurn {turn : Turn} {s : State} (h : Inv s) (hcall : ∀ c, turn ≠ .call c 0)
    (hread : turn = .readResult → s.written = true) : ∃ t, takeTurn turn s = .next t := by
  cases turn with
  | block =>
    by_cases hidle : s.st = .idle
    · cases hv : s.reqValid
      · exact ⟨s, blockTurn_rest hidle hv⟩
      · exact ⟨_, blockTurn_take hidle hv⟩
    · obtain ⟨t, m⟩ := exists_framerMove h
      exact ⟨t, (blockTurn_busy hidle).trans m.framerStep_eq⟩
  | present r => exact exists_hostAction (act := fun s => .next (presentRequest r s)) ⟨_, rfl⟩
  | withdraw => exact exists_hostAction (act := fun s => .next (withdrawRequest s)) ⟨_, rfl⟩
  | readResult => exact exists_hostAction ⟨_, readResult_written (hread rfl)⟩
  | call c n =>
    have hn : 1 ≤ n := Nat.one_le_iff_ne_zero.2 fun hn => hcall c (hn ▸ rfl)
    exact exists_hostAction ⟨_, startLoop_pos hn c s⟩
  | uart | line | hostLoop | rst => exact ⟨_, rfl⟩

theorem FramerMove.written_mono {s t : State} (m : FramerMove s t) (h : s.written = true) : t.written = true := by
  cases m with
  | badCount | extendedDone | verified | corrupt => rfl
  | _ => exact h

/-- That a result was published once stays true (log entry 6). -/
theorem TurnCase.written_mono {turn : Turn} {s t : State} (m : TurnCase s turn t) (h : s.written = true) :
    t.written = true := by
  cases m with
  | framer _ m => exact m.written_mono h
  | host m => exact m.sameBlock.written.trans h
  | rejected => rfl
  | accepted | clocked | arrived | overrun | still | reset => exact h

theorem AgendaRuns.nextTurn_of_cons {s : State} {turn : Turn} {l : List Turn} (h : AgendaRuns s)
    (ha : s.agenda = turn :: l) : (∀ c, turn ≠ .call c 0) ∧ (turn = .readResult → s.written = true) := by
  obtain ⟨hcall, hread⟩ := h
  have hmem : turn ∈ s.agenda := ha ▸ List.mem_cons_self
  exact ⟨fun c hc => hcall c (hc ▸ hmem), fun hr => hread (hr ▸ hmem)⟩

/-- The turns planned run on after a step: it plans none and takes no result back. -/
theorem AgendaRuns.of_step {s t : State} (h : AgendaRuns s) (hstep : step s = .next t) : AgendaRuns t := by
  obtain ⟨hcall, hread⟩ := h
  have ha : t.agenda = s.agenda.tail := takeTurn_keeps_agenda hstep
  exact ⟨fun c hc => hcall c (List.mem_of_mem_tail (ha ▸ hc)),
    fun hr => (step_turnCase hstep).written_mono (hread (List.mem_of_mem_tail (ha ▸ hr)))⟩

/-- A step inside a transaction ends it or comes nearer to its end, counting the turns still planned. -/
theorem step_approaches_idle {s : State} (h : Inv s) (hruns : AgendaRuns s) (hbusy : s.st ≠ .idle) :
    ∃ t, step s = .next t ∧ (t.st = .idle ∨ t.agenda.length + t.remaining < s.agenda.length + s.remaining) := by
  cases ha : s.agenda with
  | nil =>
    have hcap := h.capacity.1
    have hturn : s.nextTurn = s.defaultTurn := by rw [State.nextTurn, ha]
    have hserves : s.nextTurn.serves = some s.popTurn.mover := hturn ▸ defaultTurn_serves hcap hbusy
    obtain ⟨t, hstep⟩ := exists_takeTurn (turn := s.nextTurn) h.popTurn
      (fun c hc => by simp [hc, Turn.serves] at hserves) (fun hr => by simp [hr, Turn.serves] at hserves)
    have hagenda : t.agenda = s.agenda.tail := takeTurn_keeps_agenda hstep
    refine ⟨t, hstep, ((step_turnCase hstep).remaining_lt_of_mover hcap hbusy hserves).imp_right fun hlt => ?_⟩
    have hlt : t.remaining < s.remaining := hlt
    simpa [hagenda, ha] using hlt
  | cons turn l =>
    have hturn : s.nextTurn = turn := by rw [State.nextTurn, ha]
    obtain ⟨hcall, hread⟩ := hruns.nextTurn_of_cons ha
    obtain ⟨t, hstep⟩ := exists_takeTurn (turn := s.nextTurn) h.popTurn (hturn ▸ hcall) (hturn ▸ hread)
    have hagenda : t.agenda = s.agenda.tail := takeTurn_keeps_agenda hstep
    refine ⟨t, hstep, ((step_turnCase hstep).idle_or_remaining_le hbusy).imp_right fun hle => ?_⟩
    have hle : t.remaining ≤ s.remaining := hle
    simp only [hagenda, ha, List.tail_cons, List.length_cons]
    omega

/-- Over any agenda that runs, a state of the invariant reaches IDLE within its measure and the turns planned. -/
theorem reaches_idle {n : Nat} {s : State} (h : Inv s) (hruns : AgendaRuns s)
    (hn : s.agenda.length + s.remaining ≤ n) :
    ∃ k, k ≤ n ∧ ∃ t, Host.Core.run core k s = .next t ∧ t.st = .idle := by
  induction n generalizing s with
  | zero =>
    have hrank : s.st.rank = 0 := by
      rw [State.remaining] at hn
      omega
    exact ⟨0, le_rfl, s, rfl, Fsm.eq_idle_of_rank_eq_zero hrank⟩
  | succ n ih =>
    by_cases hbusy : s.st = .idle
    · exact ⟨0, Nat.zero_le _, s, rfl, hbusy⟩
    obtain ⟨t, hstep, hidle | hlt⟩ := step_approaches_idle h hruns hbusy
    · exact ⟨1, Nat.le_add_left .., t, run_succ hstep, hidle⟩
    · have ht : Inv t := everyStepKeepsTheInvariant s t h hstep
      obtain ⟨k, hk, u, hrun, hu⟩ := ih ht (hruns.of_step hstep) (by omega)
      exact ⟨k + 1, Nat.succ_le_succ hk, u, (run_succ hstep).trans hrun, hu⟩

/-! ### In every weakly fair run -/

theorem IsRun.inv {states : Nat → State} {turns : Nat → Turn} (hrun : IsRun states turns)
    (h : Inv (states 0)) (n : Nat) : Inv (states n) := by
  induction n with
  | zero => exact h
  | succ n ih => exact (takeTurn_next (hrun n)).turnCase.inv ih

/-- In a weakly fair run that stays outside IDLE the measure drops: as long as it does not, the agent to move is the
same and stays enabled, so that its turn comes. -/
theorem IsRun.remaining_drops {states : Nat → State} {turns : Nat → Turn} (hrun : IsRun states turns)
    (hfair : WeaklyFair states turns) (h : Inv (states 0)) {n : Nat} (hbusy : ∀ m, n ≤ m → (states m).st ≠ .idle) :
    ∃ m, n ≤ m ∧ (states m).remaining < (states n).remaining := by
  by_contra hnone
  have hge (m : Nat) (hm : n ≤ m) : (states n).remaining ≤ (states m).remaining :=
    Nat.not_lt.1 fun hlt => hnone ⟨m, hm, hlt⟩
  have hcap (m : Nat) : 1 ≤ (states m).params.txqCap := (hrun.inv h m).capacity.1
  have hturn (m : Nat) : TurnCase (states m) (turns m) (states (m + 1)) := (takeTurn_next (hrun m)).turnCase
  have hstill (m : Nat) (hm : n ≤ m) :
      (states m).st = (states n).st ∧ (states m).txq = (states n).txq ∧ (states m).params = (states n).params := by
    induction m, hm using Nat.le_induction with
    | base => exact ⟨rfl, rfl, rfl⟩
    | succ m hm ih =>
      obtain ⟨hst, hq, hparams⟩ := ih
      have hsame : (states m).remaining = (states n).remaining := by rw [State.remaining, State.remaining, hst, hq]
      rcases (hturn m).progress (hbusy m hm) with hidle | hlt | ⟨hst', hq'⟩
      · exact absurd hidle (hbusy (m + 1) (Nat.le_succ_of_le hm))
      · exact absurd (hsame ▸ hlt) (Nat.not_lt.2 (hge (m + 1) (Nat.le_succ_of_le hm)))
      · exact ⟨hst'.trans hst, hq'.trans hq, (hturn m).params_eq.trans hparams⟩
  have hmover (m : Nat) (hm : n ≤ m) : (states m).mover = (states n).mover := by
    obtain ⟨hst, hq, hparams⟩ := hstill m hm
    exact mover_congr (hbusy m hm) hst hq (congrArg Params.txqCap hparams)
  obtain ⟨m, hm, hserves⟩ := hfair (states n).mover n fun m hm => hmover m hm ▸ mover_enabled (hcap m) (hbusy m hm)
  rcases (hturn m).remaining_lt_of_mover (hcap m) (hbusy m hm) (hmover m hm ▸ hserves) with hidle | hlt
  · exact hbusy (m + 1) (Nat.le_succ_of_le hm) hidle
  · obtain ⟨hst, hq, -⟩ := hstill m hm
    have hsame : (states m).remaining = (states n).remaining := by rw [State.remaining, State.remaining, hst, hq]
    exact hnone ⟨m + 1, Nat.le_succ_of_le hm, hsame ▸ hlt⟩

/-- A weakly fair run comes to IDLE from any of its states. -/
theorem IsRun.exists_idle {states : Nat → State} {turns : Nat → Turn} (hrun : IsRun states turns)
    (hfair : WeaklyFair states turns) (h : Inv (states 0)) (n : Nat) : ∃ m, n ≤ m ∧ (states m).st = .idle := by
  induction hk : (states n).remaining using Nat.strong_induction_on generalizing n with
  | _ k ih =>
    by_contra hnone
    have hbusy (m : Nat) (hm : n ≤ m) : (states m).st ≠ .idle := fun hidle => hnone ⟨m, hm, hidle⟩
    obtain ⟨m, hm, hlt⟩ := hrun.remaining_drops hfair h hbusy
    obtain ⟨m', hm', hidle⟩ := ih _ (hk ▸ hlt) m rfl
    exact hbusy m' (hm.trans hm') hidle

/-- Settles O48: the first clause from the measure, which the ranks and the capacity bound, the second from fairness. -/
theorem everyTransactionReturnsToIdle : Obligations.EveryTransactionReturnsToIdle := by
  unfold Obligations.EveryTransactionReturnsToIdle
  refine ⟨fun s h _ hcall hread => reaches_idle h ⟨hcall, hread⟩ ?_, fun states turns h hrun hfair n =>
    hrun.exists_idle hfair h n⟩
  have hrank := s.st.rank_le
  obtain ⟨-, htx, -⟩ := h.capacity
  rw [State.remaining]
  omega

end Sys2Proof.Machine
end

section
/-! Whole transactions from IDLE to IDLE (43_transaction.md section 4), put together from their phases: the request
taken and the bus turned round, the bytes sent, the response received and published. -/

namespace Sys2Proof.Machine

/-! ### One turn of a run -/

/-- A run that begins with a move of the framer. -/
theorem run_framer {n : Nat} {s t : State} {l : List Turn} (ha : s.agenda = .block :: l) (hbusy : s.st ≠ .idle)
    (m : FramerMove { s with agenda := l } t) : Host.Core.run core (n + 1) s = Host.Core.run core n t := by
  apply run_succ
  rw [step_cons ha, takeTurn_block, blockTurn_busy (s := { s with agenda := l }) hbusy, m.framerStep_eq]

/-- A run that begins with a byte clocked out. -/
theorem run_uart {n : Nat} {s : State} {l : List Turn} {b : Byte} {q : List Byte} (ha : s.agenda = .uart :: l)
    (hq : s.txq = b :: q) : Host.Core.run core (n + 1) s = Host.Core.run core n { s with
      agenda := l, txq := q, history := s.history ++ [.wire b (decide (s.dir = .transmit))] } := by
  apply run_succ
  rw [step_cons ha, takeTurn_uart, uartStep_cons (s := { s with agenda := l }) hq]

/-- A run that begins with a byte delivered. -/
theorem run_line {n : Nat} {s : State} {l : List Turn} {b : Byte} (ha : s.agenda = .line b :: l)
    (hroom : s.rxb.length < s.params.rxCap) : Host.Core.run core (n + 1) s = Host.Core.run core n { s with
      agenda := l, rxb := s.rxb ++ [b], history := s.history ++ [.rxArrive b] } := by
  apply run_succ
  rw [step_cons ha, takeTurn_line, lineStep_room (s := { s with agenda := l }) b hroom]

/-- A run that begins with a legal request taken. -/
theorem run_accept {n : Nat} {s : State} {l : List Turn} (ha : s.agenda = .block :: l) (hidle : s.st = .idle)
    (hv : s.reqValid = true) (hl : legal s.req = true) : Host.Core.run core (n + 1) s = Host.Core.run core n { s with
      st := .preFlush, latch := s.req, rNew := false, reqValid := false, agenda := l
      history := s.history ++ [.accept s.req] } := by
  apply run_succ
  rw [step_cons ha, takeTurn_block, blockTurn_take (s := { s with agenda := l }) hidle hv, takeRequest_legal hl]

/-! ### The phases -/

/-- From IDLE to TX_BYTE0. -/
theorem run_toTxByte0 {n : Nat} {s : State} {l : List Turn} (ha : s.agenda = .block :: .block :: .block :: .block :: l)
    (hidle : s.st = .idle) (hv : s.reqValid = true) (hl : legal s.req = true) :
    Host.Core.run core (n + 4) s = Host.Core.run core n { s with
      st := .txByte0, dir := .transmit, latch := s.req, rNew := false, reqValid := false, rxb := [], agenda := l
      history := s.history ++ [.accept s.req, .rxDrop s.rxb.length, .setDir .transmit, .wait .drvSettle] } := by
  refine Eq.trans (run_accept ha hidle hv hl) ?_
  refine Eq.trans (run_framer rfl (by simp) (.preFlush rfl)) ?_
  refine Eq.trans (run_framer rfl (by simp) (.txEnable rfl)) ?_
  refine Eq.trans (run_framer rfl (by simp) (.txSettle rfl)) ?_
  simp only [List.append_assoc, List.cons_append, List.nil_append]

/-- From TX_DRAIN with the queue empty to RX_CHECK, the response wait over. -/
theorem run_toRxCheck {n : Nat} {s : State} {l : List Turn} (ha : s.agenda = .block :: .block :: .block :: l)
    (hs : s.st = .txDrain) (hq : s.txq = []) :
    Host.Core.run core (n + 3) s = Host.Core.run core n { s with
      st := .rxCheck, dir := .receive, agenda := l, history := s.history ++ [.setDir .receive, .wait .rspWait] } := by
  refine Eq.trans (run_framer ha (by simp [hs]) (.drained hs hq)) ?_
  refine Eq.trans (run_framer rfl (by simp) (.rxEnable rfl)) ?_
  refine Eq.trans (run_framer rfl (by simp) (.rxWait rfl)) ?_
  simp only [List.append_assoc, List.cons_append, List.nil_append]

/-- From POST_FLUSH to IDLE. -/
theorem run_toIdle {n : Nat} {s : State} {l : List Turn} (ha : s.agenda = .block :: .block :: l)
    (hs : s.st = .postFlush) :
    Host.Core.run core (n + 2) s = Host.Core.run core n { s with
      st := .idle, rxb := [], agenda := l
      history := s.history ++
        [.rxDrop s.rxb.length, .wait (if s.latch.cmd = 0b10#2 then .extHoldoff else .quiet)] } := by
  refine Eq.trans (run_framer ha (by simp [hs]) (.postFlush hs)) ?_
  refine Eq.trans (run_framer rfl (by simp) (.quiet rfl)) ?_
  simp only [List.append_assoc, List.cons_append, List.nil_append]

/-- A read command sends its host byte. -/
theorem run_sendRead {n : Nat} {s : State} {l : List Turn} (ha : s.agenda = .block :: .uart :: l)
    (hs : s.st = .txByte0) (hd : s.dir = .transmit) (hq : s.txq = []) (hcap : 1 ≤ s.params.txqCap)
    (hread : s.latch.cmd ≠ 0b10#2) :
    Host.Core.run core (n + 2) s = Host.Core.run core n { s with
      st := .txDrain, agenda := l
      history := s.history ++ [.txWrite (hostByte s.latch), .wire (hostByte s.latch) true] } := by
  refine Eq.trans (run_framer ha (by simp [hs]) (.txByte0Read hs hread (by simpa [hq] using Nat.lt_of_succ_le hcap))) ?_
  refine Eq.trans (run_uart (b := hostByte s.latch) (q := []) rfl (by simp [hq])) ?_
  simp only [List.append_assoc, List.cons_append, List.nil_append, hd, hq, decide_true]

/-- An extended command sends its host byte and its sub-command. -/
theorem run_sendExtended {n : Nat} {s : State} {l : List Turn} (ha : s.agenda = .block :: .block :: .uart :: .uart :: l)
    (hs : s.st = .txByte0) (hd : s.dir = .transmit) (hq : s.txq = []) (hcap : 2 ≤ s.params.txqCap)
    (hext : s.latch.cmd = 0b10#2) :
    Host.Core.run core (n + 4) s = Host.Core.run core n { s with
      st := .txDrain, agenda := l
      history := s.history ++ [.txWrite (hostByte s.latch), .txWrite s.latch.sub, .wire (hostByte s.latch) true,
        .wire s.latch.sub true] } := by
  have hone : s.txq.length < s.params.txqCap := by simpa [hq] using Nat.zero_lt_of_lt hcap
  have htwo : (s.txq ++ [hostByte s.latch]).length < s.params.txqCap := by simpa [hq] using Nat.lt_of_succ_le hcap
  refine Eq.trans (run_framer ha (by simp [hs]) (.txByte0Extended hs hext hone)) ?_
  refine Eq.trans (run_framer rfl (by simp) (.txByte1 rfl htwo)) ?_
  refine Eq.trans (run_uart (b := hostByte s.latch) (q := [s.latch.sub]) rfl (by simp [hq])) ?_
  refine Eq.trans (run_uart (b := s.latch.sub) (q := []) rfl rfl) ?_
  simp only [List.append_assoc, List.cons_append, List.nil_append, hd, hq, decide_true]

/-- What VERIFY publishes of a word: its status and its data (R175). -/
def verdict (latch : Request) (raw : Word) : Status × Word :=
  if verify raw then (.ok, latchedDecode latch raw) else (.checksumMismatch, failureData)

theorem verdict_pass {latch : Request} {raw : Word} (h : verify raw = true) :
    verdict latch raw = (.ok, latchedDecode latch raw) := by
  simp [verdict, h]

theorem verdict_fail {latch : Request} {raw : Word} (h : verify raw = false) :
    verdict latch raw = (.checksumMismatch, failureData) := by
  simp [verdict, h]

/-- VERIFY publishes the verdict. -/
theorem framerMove_verify {s : State} (hs : s.st = .verify) : FramerMove s { s with
    st := .postFlush, rStatus := (verdict s.latch s.raw).1, rOk := (verdict s.latch s.raw).1 == .ok
    rData := (verdict s.latch s.raw).2, rCount := s.cnt, rNew := true, written := true
    history := s.history ++ [.publish (verdict s.latch s.raw).1 (verdict s.latch s.raw).2 s.cnt] } := by
  cases hv : Machine.verify s.raw
  · rw [verdict_fail hv]
    exact .corrupt hs hv
  · rw [verdict_pass hv]
    exact .verified hs hv

/-- A read command receives its two bytes and publishes the verdict on their word. -/
theorem run_receive {n : Nat} {s : State} {l : List Turn} {lo hi : Byte}
    (ha : s.agenda = .line lo :: .line hi :: .block :: .block :: .block :: .block :: l) (hs : s.st = .rxCheck)
    (hb : s.rxb = []) (hcap : 2 ≤ s.params.rxCap) (hread : s.latch.cmd = 0b00#2 ∨ s.latch.cmd = 0b01#2) :
    Host.Core.run core (n + 6) s = Host.Core.run core n { s with
      st := .postFlush, cnt := 2#8, raw := hi ++ lo, rStatus := (verdict s.latch (hi ++ lo)).1
      rOk := (verdict s.latch (hi ++ lo)).1 == .ok, rData := (verdict s.latch (hi ++ lo)).2, rCount := 2#8, rNew := true
      written := true, rxb := [], agenda := l
      history := s.history ++ [.rxArrive lo, .rxArrive hi, .rxRead lo, .rxRead hi,
        .publish (verdict s.latch (hi ++ lo)).1 (verdict s.latch (hi ++ lo)).2 2#8] } := by
  have hone : s.rxb.length < s.params.rxCap := by simpa [hb] using Nat.zero_lt_of_lt hcap
  have htwo : (s.rxb ++ [lo]).length < s.params.rxCap := by simpa [hb] using Nat.lt_of_succ_le hcap
  have hraw : withHighByte (withLowByte s.raw lo) hi = hi ++ lo := congrArg (wordOf hi) (low_withLowByte s.raw lo)
  refine Eq.trans (run_line ha hone) ?_
  refine Eq.trans (run_line rfl htwo) ?_
  refine Eq.trans (run_framer rfl (by simp [hs]) (.toRead hs hread (by simp [hb]))) ?_
  refine Eq.trans (run_framer rfl (by simp) (.rxLo lo [hi] rfl (by simp [hb]))) ?_
  refine Eq.trans (run_framer rfl (by simp) (.rxHi hi [] rfl rfl)) ?_
  refine Eq.trans (run_framer rfl (by simp) (framerMove_verify rfl)) ?_
  simp only [List.append_assoc, List.cons_append, List.nil_append, hraw]

/-! ### The transactions -/

/-- A read transaction, for the position or the turn count. -/
theorem run_readTransaction {s : State} {lo hi : Byte} (hl : legal s.req = true)
    (hread : s.req.cmd = 0b00#2 ∨ s.req.cmd = 0b01#2) (hidle : s.st = .idle) (hq : s.txq = [])
    (htx : 1 ≤ s.params.txqCap) (hrx : 2 ≤ s.params.rxCap) (hv : s.reqValid = true)
    (ha : s.agenda = [.block, .block, .block, .block, .block, .uart, .block, .block, .block, .line lo, .line hi, .block,
      .block, .block, .block, .block, .block]) :
    Host.Core.run core 17 s = .next { s with
      st := .idle, dir := .receive, latch := s.req, cnt := 2#8, raw := hi ++ lo
      rStatus := (verdict s.req (hi ++ lo)).1, rOk := (verdict s.req (hi ++ lo)).1 == .ok
      rData := (verdict s.req (hi ++ lo)).2, rCount := 2#8, rNew := true, written := true, txq := [], rxb := []
      reqValid := false, agenda := []
      history := s.history ++ [.accept s.req, .rxDrop s.rxb.length, .setDir .transmit, .wait .drvSettle,
        .txWrite (hostByte s.req), .wire (hostByte s.req) true, .setDir .receive, .wait .rspWait, .rxArrive lo,
        .rxArrive hi, .rxRead lo, .rxRead hi, .publish (verdict s.req (hi ++ lo)).1 (verdict s.req (hi ++ lo)).2 2#8,
        .rxDrop 0, .wait .quiet] } := by
  have hext : s.req.cmd ≠ 0b10#2 := by rcases hread with h | h <;> simp [h]
  refine Eq.trans (run_toTxByte0 ha hidle hv hl) ?_
  refine Eq.trans (run_sendRead rfl rfl rfl hq htx hext) ?_
  refine Eq.trans (run_toRxCheck rfl rfl hq) ?_
  refine Eq.trans (run_receive rfl rfl rfl hrx hread) ?_
  refine Eq.trans (run_toIdle rfl rfl) ?_
  simp only [Host.Core.run, List.append_assoc, List.cons_append, List.nil_append, List.length_nil, if_neg hext, hq]

/-- On an aligned base the host byte is a sum (R162). -/
theorem hostByteOf_eq_add {base : Byte} (haligned : base.toNat % 4 = 0) (m : BitVec 2) :
    hostByteOf base m = base + m.setWidth 8 := by
  apply BitVec.eq_of_toNat_eq
  have hbase := base.isLt
  have hm := m.isLt
  rw [hostByteOf_toNat haligned, BitVec.toNat_add, BitVec.toNat_setWidth_of_le (by decide)]
  omega

/-- A request whose command is a read's is legal at an aligned base (R161). -/
theorem legal_of_read {r : Request} (haligned : r.addr.toNat % 4 = 0) (hread : r.cmd = 0b00#2 ∨ r.cmd = 0b01#2) :
    legal r = true := by
  refine (legal_iff r).2 ⟨(lowBits_eq_zero_iff _).2 haligned, ?_, fun hext => ?_⟩
  · rcases hread with h | h <;> simp [h]
  · rcases hread with h | h <;> simp [h] at hext

/-- Settles O45: a read transaction whose host byte is the base itself and whose decoder is the position's. -/
theorem getposTransaction : Obligations.GetposTransaction := by
  unfold Obligations.GetposTransaction
  intro base lo hi res sub s haligned hidle hq htx hrx _ hv hreq ha
  have hread : s.req.cmd = 0b00#2 ∨ s.req.cmd = 0b01#2 := .inl (by rw [hreq])
  have hl : legal s.req = true := legal_of_read (by rwa [hreq]) hread
  have hhost : hostByte s.req = base := by
    rw [hreq]
    exact (hostByteOf_eq_add haligned 0b00#2).trans (BitVec.add_zero base)
  have hdecode : latchedDecode s.req (hi ++ lo) = decodePosition (hi ++ lo) res := by
    rw [hreq]
    cases res <;> rfl
  have hrun := run_readTransaction hl hread hidle hq htx hrx hv ha
  rw [hhost] at hrun
  refine ⟨_, _, fun hpass => ?_, fun hfail => ?_, hrun⟩
  · rw [verdict_pass hpass, hdecode]
    exact ⟨rfl, rfl⟩
  · rw [verdict_fail hfail]
    exact ⟨rfl, rfl⟩

/-- Settles O46: a read transaction whose host byte is the base plus 1 and whose decoder is the turn count's. -/
theorem getturnsTransaction : Obligations.GetturnsTransaction := by
  unfold Obligations.GetturnsTransaction
  intro base lo hi sub res12 s haligned hidle hq htx hrx _ hv hreq ha
  have hread : s.req.cmd = 0b00#2 ∨ s.req.cmd = 0b01#2 := .inr (by rw [hreq])
  have hl : legal s.req = true := legal_of_read (by rwa [hreq]) hread
  have hhost : hostByte s.req = base + 1#8 := by
    rw [hreq]
    exact hostByteOf_eq_add haligned 0b01#2
  have hdecode : latchedDecode s.req (hi ++ lo) = decodeTurns (hi ++ lo) := by
    rw [hreq]
    rfl
  have hrun := run_readTransaction hl hread hidle hq htx hrx hv ha
  rw [hhost] at hrun
  refine ⟨_, _, fun hpass => ?_, fun hfail => ?_, hrun⟩
  · rw [verdict_pass hpass, hdecode]
    exact ⟨rfl, rfl⟩
  · rw [verdict_fail hfail]

/-- Settles O47: the two bytes are sent, and with no response byte to expect RX_CHECK publishes. -/
theorem extendedTransaction : Obligations.ExtendedTransaction := by
  unfold Obligations.ExtendedTransaction
  intro base sub res12 s hsub haligned hidle hq htx hcount _ hv hreq ha
  have hext : s.req.cmd = 0b10#2 := by rw [hreq]
  have hl : legal s.req = true := by
    rw [hreq]
    exact (legal_iff _).2 ⟨(lowBits_eq_zero_iff _).2 haligned, nofun, fun _ => hsub⟩
  have hhost : hostByte s.req = base + 2#8 := by
    rw [hreq]
    exact hostByteOf_eq_add haligned 0b10#2
  have hsent : s.req.sub = sub := by rw [hreq]
  refine Eq.trans (run_toTxByte0 ha hidle hv hl) ?_
  refine Eq.trans (run_sendExtended rfl rfl rfl hq htx hext) ?_
  refine Eq.trans (run_toRxCheck rfl rfl hq) ?_
  refine Eq.trans (run_framer rfl (by simp) (.extendedDone rfl hext hcount.symm)) ?_
  refine Eq.trans (run_toIdle rfl rfl) ?_
  have hzero : sat8 0 = 0#8 := rfl
  simp only [Host.Core.run, List.append_assoc, List.cons_append, List.nil_append, List.length_nil, if_pos hext, hhost,
    hsent, hzero, extendedData]
  rfl

end Sys2Proof.Machine
end
